-- ==== Sys2Proof/Word.lean ====
section
/-! DEFINITION. The word types of the block: unsigned masks and words, bit 0 the least significant
(spec/00_scope.md R9). -/

namespace Sys2Proof

/-- A command word, a data bus, or a grid value widened to a bus (30_encoding R70). -/
abbrev Word := BitVec 16

/-- A mask over the 16 grid keys: bit i is key i (00_scope R7, R9). -/
abbrev GridMask := BitVec 16

/-- A mask over the 4 expansion pins (00_scope R7, R9). -/
abbrev ExpMask := BitVec 4

/-- An action code, 4 bits (30_encoding R78). -/
abbrev ActionCode := BitVec 4

/-- A gesture state id, 6 bits (10_state R28). -/
abbrev GStateId := BitVec 6

/-- A bank number 0..3, 2 bits (10_state R32). -/
abbrev BankNo := BitVec 2

/-- One entry of the event buffer, `ON` in bit 8 and `NOTE` in bits 7:0 (10_state R34). -/
abbrev EvtEntry := BitVec 9

end Sys2Proof
end

