-- ==== Sys2Proof/Config.lean ====
section
/-! DEFINITION. The implementation parameters of spec/00_scope.md R7. `DEPTH` alone varies from one
built block to another; a machine carries its own in `State.depth` (log entry 1). Beside them the one free value
of the model. -/

namespace Sys2Proof.Config

/-- The default of `DEPTH` (00_scope R7). -/
def depthDefault : Nat := 10

/-- The least legal `DEPTH` (00_scope R7). -/
def depthMin : Nat := 1

/-- The greatest legal `DEPTH` (00_scope R7). -/
def depthMax : Nat := 16

/-- `GRID_W`: bits in a grid scan word, one per key (00_scope R7). -/
def gridW : Nat := 16

/-- `EXP_W`: bits in an expansion scan word (00_scope R7). -/
def expW : Nat := 4

/-- `NUM_BANKS` (00_scope R7). -/
def numBanks : Nat := 4

/-- `NUM_GSTATES`: the gesture state ids are 0..36 (00_scope R7). -/
def numGStates : Nat := 37

/-- `NUM_GRULES`: rows of the gesture table (00_scope R7). -/
def numGRules : Nat := 44

/-- `EVT_MAX`: entries of the event buffer (00_scope R7). -/
def evtMax : Nat := 19

/-- The value that `EVT_CNT` takes after a MAP of 32 or more events, which its 5 bits cannot count and for which
the spec states no result: a FREE VALUE (log entry 16). A command is a function of state, configuration inputs,
word and operand buses (00_scope R12), so it is applied to all that a MAP computes with: its mode, the working bank,
the grid operands, the bank-select masks and the two base notes. -/
opaque freeEvtCnt (mode : BitVec 2) (bank : BankNo) (kd ku st : GridMask) (bsd bsu bss : ExpMask)
    (baseNote bankNoteBase : Nat) : BitVec 5

end Sys2Proof.Config
end

