-- ==== Sys2Proof/Syntax.lean ====
section
/-! DEFINITION. The commands of the block, one constructor for each row of spec/opcode_table.json, and the
names the spec gives to ports, causes, modes, table rows and observation outputs. -/

namespace Sys2Proof

/-- The twelve legal commands (30_encoding R74). No command word carries an operand (R76): operands are
on the data buses in the same cycle, so no constructor has arguments. -/
inductive Instr where
  /-- NOP, 0x0000 (43_control R200). -/
  | nop
  /-- SAMPLE.G, 0x1000 (40_debounce R100). -/
  | sampleG
  /-- SAMPLE.X, 0x1800 (40_debounce R100). -/
  | sampleX
  /-- READ.G, 0x2000 (40_debounce R102). -/
  | readG
  /-- READ.X, 0x2800 (40_debounce R102). -/
  | readX
  /-- CALC.G, 0x3000 (40_debounce R104). -/
  | calcG
  /-- CALC.X, 0x3800 (40_debounce R104). -/
  | calcX
  /-- GESTURE, 0x4000 (41_gesture R130). -/
  | gesture
  /-- MAP.OFF, 0x5000 (42_bank_mapper R170). -/
  | mapOff
  /-- MAP.INT, 0x5200 (42_bank_mapper R170). -/
  | mapInt
  /-- MAP.EXT, 0x5400 (42_bank_mapper R170). -/
  | mapExt
  /-- CLRSTAT, 0x6000 (43_control R201). -/
  | clrstat
  deriving DecidableEq, Repr

/-- The two command ports (30_encoding R70). -/
inductive Port where
  | producer
  | consumer
  deriving DecidableEq, Repr

/-- The causes of an illegal command (60_exceptions R222). Code 0 means that there was none. -/
inductive Cause where
  | opcode
  | field
  | mode
  | port
  deriving DecidableEq, Repr

/-- The bank modes (30_encoding R79). Code 3 is reserved and is no mode. -/
inductive BankMode where
  | off
  | internal
  | external
  deriving DecidableEq, Repr

/-- The MAP of a canonical poll: its mode and, for External, whether it will use the expansion port
(70_reset R255). -/
inductive PollMap where
  | off
  | internal
  | external (useExpansion : Bool)
  deriving DecidableEq, Repr

/-- The edge kinds of a gesture-table row (30_encoding R80). Kind code 3 is unused and is no kind. -/
inductive EdgeKind where
  | down
  | up
  | state
  deriving DecidableEq, Repr

/-- One row of the gesture table (10_state R36, 30_encoding R80). -/
structure GestureRow where
  /-- The state id the row belongs to. -/
  state : GStateId
  /-- The grid key index the row tests. -/
  key : BitVec 4
  /-- Which mask the key is tested in. -/
  kind : EdgeKind
  /-- The state id the row leads to. -/
  next : GStateId
  /-- The action code the row adopts. -/
  action : ActionCode
  deriving DecidableEq, Repr

/-- One note event: note-on or note-off, and the note as the unbounded non-negative integer it is
computed as (00_scope R11, 42_bank_mapper R170). -/
structure NoteEvent where
  on : Bool
  note : Nat
  deriving DecidableEq, Repr

/-- The observation outputs: every register of 10_state R21 to R35 by name (10_state R40). -/
inductive ObsReg where
  | ringG (slot : Nat)
  | ringX (slot : Nat)
  | wpG
  | wpX
  | stateG
  | stateX
  | prevG
  | prevX
  | kdG
  | kuG
  | kdX
  | kuX
  | gstate
  | gact
  | relkey
  | gout
  | bank
  | lastmode
  | evt (entry : Nat)
  | evtCnt
  | status
  deriving DecidableEq, Repr

/-- An operand of a listing line: a literal, or `@REG`, the value that the observation outputs show for
that register when the command issues (30_encoding R81). -/
inductive Operand where
  | lit (w : Word)
  | reg (r : ObsReg)
  deriving DecidableEq, Repr

/-- What a listing line puts on the producer port: a command word and the operand on `PD`
(30_encoding R70, R81). An omitted operand drives 0. -/
structure ProducerDrive where
  word : Word
  pd : Operand := .lit 0
  deriving DecidableEq, Repr

/-- What a listing line puts on the consumer port: a command word and the operands on `D0`..`D5`
(30_encoding R70, R81). An omitted operand drives 0. -/
structure ConsumerDrive where
  word : Word
  d0 : Operand := .lit 0
  d1 : Operand := .lit 0
  d2 : Operand := .lit 0
  d3 : Operand := .lit 0
  d4 : Operand := .lit 0
  d5 : Operand := .lit 0
  deriving DecidableEq, Repr

/-- The three configuration inputs (10_state R27). The host drives them; they are not state. -/
structure ConfigInputs where
  /-- `CFG_BASE_NOTE`, 7 bits. -/
  baseNote : BitVec 7
  /-- `CFG_BANK_NOTE_BASE`, 7 bits. -/
  bankNoteBase : BitVec 7
  /-- `CFG_EXP_EN`, 1 bit. -/
  expEn : Bool
  deriving DecidableEq, Repr

/-- One line of a listing: one cycle of the host (30_encoding R81, 70_reset R251). `none` on a port is an
idle port; `none` for the configuration leaves those inputs as they are driven. -/
structure Line where
  rst : Bool := false
  producer : Option ProducerDrive := none
  consumer : Option ConsumerDrive := none
  cfg : Option ConfigInputs := none
  deriving DecidableEq, Repr

end Sys2Proof
end

