-- ==== Sys2Proof/WellFormed.lean ====
section
/-! DEFINITION. Which terms of the syntax the spec admits: the port a command belongs to, the legal depth,
the fields of a gesture-table row, and the registers a listing may name. -/

namespace Sys2Proof

/-- The port a command belongs to (20_memory R55, 30_encoding R74). -/
def Instr.port : Instr → Port
  | .nop => .consumer
  | .sampleG => .producer
  | .sampleX => .producer
  | .readG => .consumer
  | .readX => .consumer
  | .calcG => .consumer
  | .calcX => .consumer
  | .gesture => .consumer
  | .mapOff => .consumer
  | .mapInt => .consumer
  | .mapExt => .consumer
  | .clrstat => .consumer

/-- A command is well formed on a port when it belongs to it (30_encoding R75). -/
def Instr.wellFormedOn (p : Port) (i : Instr) : Bool :=
  i.port == p

/-- The legal values of `DEPTH` (00_scope R7). -/
def depthLegal (d : Nat) : Bool :=
  decide (Config.depthMin ≤ d) && decide (d ≤ Config.depthMax)

/-- The field values a gesture-table row may have (30_encoding R78, R80). The key and the kind are legal
by their types. -/
def GestureRow.wellFormed (r : GestureRow) : Bool :=
  decide (r.state.toNat < Config.numGStates) && decide (r.next.toNat < Config.numGStates) &&
    decide (r.action.toNat ≤ 10)

/-- The observation outputs that a block of depth `d` has: its ring slots are 0..`d-1` and its event
entries 0..18 (10_state R21, R22, R34). -/
def ObsReg.wellFormed (d : Nat) : ObsReg → Bool
  | .ringG j => decide (j < d)
  | .ringX j => decide (j < d)
  | .evt k => decide (k < Config.evtMax)
  | _ => true

/-- An operand names only outputs that exist. -/
def Operand.wellFormed (d : Nat) : Operand → Bool
  | .lit _ => true
  | .reg r => r.wellFormed d

/-- Every operand of a producer drive names an output that exists. -/
def ProducerDrive.wellFormed (d : Nat) (p : ProducerDrive) : Bool :=
  p.pd.wellFormed d

/-- Every operand of a consumer drive names an output that exists. -/
def ConsumerDrive.wellFormed (d : Nat) (c : ConsumerDrive) : Bool :=
  c.d0.wellFormed d && c.d1.wellFormed d && c.d2.wellFormed d && c.d3.wellFormed d &&
    c.d4.wellFormed d && c.d5.wellFormed d

/-- Every operand of a listing line names an output that exists. -/
def Line.wellFormed (d : Nat) (l : Line) : Bool :=
  (l.producer.map (·.wellFormed d)).getD true && (l.consumer.map (·.wellFormed d)).getD true

end Sys2Proof
end

