-- ==== Sys2Proof/Decode.lean ====
section
/-! DEFINITION. The command word format F1 and the decoder of each port, total on every word and naming the
cause of each word it rejects (spec/30_encoding.md R71 to R77, spec/60_exceptions.md R222); then the encoder. -/

namespace Sys2Proof

/-- Field `OP`, bits 15:12 (30_encoding R71). -/
def fieldOp (w : Word) : BitVec 4 := w.extractLsb' 12 4

/-- Field `CH`, bit 11 (30_encoding R71). -/
def fieldCh (w : Word) : BitVec 1 := w.extractLsb' 11 1

/-- Field `MODE`, bits 10:9 (30_encoding R71). -/
def fieldMode (w : Word) : BitVec 2 := w.extractLsb' 9 2

/-- Field `RSV`, bits 8:0 (30_encoding R71). -/
def fieldRsv (w : Word) : BitVec 9 := w.extractLsb' 0 9

/-- What a port makes of a word: a command, or an illegal word and its cause (60_exceptions R221). -/
inductive Decoded where
  | legal (i : Instr)
  | illegal (c : Cause)
  deriving DecidableEq, Repr

/-- The two SAMPLE words, 0x1000 and 0x1800 (30_encoding R75). -/
def isSampleWord (w : Word) : Bool :=
  w == 0x1000#16 || w == 0x1800#16

/-- The opcodes that use the field `CH`: SAMPLE, READ and CALC (30_encoding R71, R73). -/
def usesCh (op : BitVec 4) : Bool :=
  op == 1#4 || op == 2#4 || op == 3#4

/-- The opcode that uses the field `MODE`: MAP (30_encoding R71, R73). -/
def usesMode (op : BitVec 4) : Bool :=
  op == 5#4

/-- Some field that 30_encoding R73 requires to be 0 is nonzero. -/
def strayField (w : Word) : Bool :=
  fieldRsv w != 0#9 || (!usesCh (fieldOp w) && fieldCh w != 0#1) ||
    (!usesMode (fieldOp w) && fieldMode w != 0#2)

/-- The cause with which a port rejects a word, `none` for a legal one: the procedure of
60_exceptions R222, in its order. -/
def illegalCause (p : Port) (w : Word) : Option Cause :=
  match p with
  | .producer => if isSampleWord w then none else some .port
  | .consumer =>
    if isSampleWord w then some .port
    else if 7 ≤ (fieldOp w).toNat then some .opcode
    else if fieldOp w == 5#4 && fieldMode w == 3#2 then some .mode
    else if strayField w then some .field
    else none

/-- The command that the opcode, channel and mode fields name (30_encoding R72, R79); `none` for a
reserved opcode or mode. -/
def instrOfFields (op : BitVec 4) (ch : BitVec 1) (mode : BitVec 2) : Option Instr :=
  match op.toNat with
  | 0 => some .nop
  | 1 => some (if ch == 0#1 then .sampleG else .sampleX)
  | 2 => some (if ch == 0#1 then .readG else .readX)
  | 3 => some (if ch == 0#1 then .calcG else .calcX)
  | 4 => some .gesture
  | 5 =>
    match mode.toNat with
    | 0 => some .mapOff
    | 1 => some .mapInt
    | 2 => some .mapExt
    | _ => none
  | 6 => some .clrstat
  | _ => none

/-- The decoder of a port: total on every word, and a rejected word comes with its cause
(30_encoding R74, R75, R77; 60_exceptions R222). The last case answers no word: a word without a cause
has an opcode and a mode in the map (`decode_last_case_unused` in Laws). -/
def decode (p : Port) (w : Word) : Decoded :=
  match illegalCause p w with
  | some c => .illegal c
  | none =>
    match instrOfFields (fieldOp w) (fieldCh w) (fieldMode w) with
    | some i => .legal i
    | none => .illegal .opcode

/-- A word of format F1 from its fields (30_encoding R71). -/
def packF1 (op : BitVec 4) (ch : BitVec 1) (mode : BitVec 2) (rsv : BitVec 9) : Word :=
  (op.setWidth 16 <<< 12) ||| (ch.setWidth 16 <<< 11) ||| (mode.setWidth 16 <<< 9) ||| rsv.setWidth 16

/-- The word of each command, from the opcode map and the field columns (30_encoding R72, R73, R79). -/
def encode : Instr → Word
  | .nop => packF1 0 0 0 0
  | .sampleG => packF1 1 0 0 0
  | .sampleX => packF1 1 1 0 0
  | .readG => packF1 2 0 0 0
  | .readX => packF1 2 1 0 0
  | .calcG => packF1 3 0 0 0
  | .calcX => packF1 3 1 0 0
  | .gesture => packF1 4 0 0 0
  | .mapOff => packF1 5 0 0 0
  | .mapInt => packF1 5 0 1 0
  | .mapExt => packF1 5 0 2 0
  | .clrstat => packF1 6 0 0 0

/-- The command a word stands for on the port that may issue it; `none` where both ports reject it. -/
def decodeAnyPort (w : Word) : Option Instr :=
  match decode .producer w with
  | .legal i => some i
  | .illegal _ =>
    match decode .consumer w with
    | .legal i => some i
    | .illegal _ => none

/-- The word of an instruction given as `nbits` bits `w` of the opcode table's numbering: every command is
one 16-bit word (30_encoding R70), so the word is the low 16 bits (log entry 15). -/
def tableWord (nbits w : Nat) : Word :=
  BitVec.ofNat 16 (w % 2 ^ nbits)

/-- The command that the decoder reads from an opcode-table word. -/
def decodeTableWord (nbits w : Nat) : Option Instr :=
  decodeAnyPort (tableWord nbits w)

end Sys2Proof
end

