-- ==== Sys2Proof/Machine/State.lean ====
section
/-! DEFINITION. The state of the block: every register of spec/10_state.md R21 to R35, and beside them the
three things that the spec calls parameters and a step must nevertheless read (10_state R20): the depth, the
input pins, and the pins of the cycles to come. The reset state is that of spec/70_reset_and_hazards.md R250. -/

namespace Sys2Proof.Machine

/-- The block's input pins in one cycle (30_encoding R70, 70_reset R251, 10_state R27). -/
structure Pins where
  /-- `RST`, active high (70_reset R251). -/
  rst : Bool
  /-- `PCMD`; `none` is an idle producer port (30_encoding R70). -/
  pcmd : Option Word
  /-- `PD[15:0]`, the producer port's data bus. -/
  pd : Word
  /-- `CCMD`; `none` is an idle consumer port (30_encoding R70). -/
  ccmd : Option Word
  /-- `D0[15:0]`. -/
  d0 : Word
  /-- `D1[15:0]`. -/
  d1 : Word
  /-- `D2[15:0]`. -/
  d2 : Word
  /-- `D3[15:0]`. -/
  d3 : Word
  /-- `D4[15:0]`. -/
  d4 : Word
  /-- `D5[15:0]`. -/
  d5 : Word
  /-- The configuration inputs (10_state R27). -/
  cfg : ConfigInputs
  deriving DecidableEq, Repr

/-- The pins before the host has driven anything: `RST` low, both ports idle, and every bus and
configuration input 0. DESIGN CHOICE (log entry 3): the spec gives the inputs no reset value (10_state R27). -/
def Pins.quiet : Pins where
  rst := false
  pcmd := none
  pd := 0#16
  ccmd := none
  d0 := 0#16
  d1 := 0#16
  d2 := 0#16
  d3 := 0#16
  d4 := 0#16
  d5 := 0#16
  cfg := { baseNote := 0#7, bankNoteBase := 0#7, expEn := false }

/-- The machine: the block's registers and its inputs. -/
structure State where
  /-- `DEPTH`, fixed for the machine: no command and no reset changes it (00_scope R8, log entry 1). -/
  depth : Nat
  /-- `RING_G[0..DEPTH-1]`, slot 0 first (10_state R21). -/
  ringG : List GridMask
  /-- `RING_X[0..DEPTH-1]`, slot 0 first (10_state R22). -/
  ringX : List ExpMask
  /-- `WP_G` (10_state R23). -/
  wpG : BitVec 4
  /-- `WP_X` (10_state R23). -/
  wpX : BitVec 4
  /-- `STATE_G` (10_state R24). -/
  stateG : GridMask
  /-- `STATE_X` (10_state R24). -/
  stateX : ExpMask
  /-- `PREV_G` (10_state R25). -/
  prevG : GridMask
  /-- `PREV_X` (10_state R25). -/
  prevX : ExpMask
  /-- `KD_G` (10_state R26). -/
  kdG : GridMask
  /-- `KU_G` (10_state R26). -/
  kuG : GridMask
  /-- `KD_X` (10_state R26). -/
  kdX : ExpMask
  /-- `KU_X` (10_state R26). -/
  kuX : ExpMask
  /-- `GSTATE` (10_state R28). -/
  gstate : GStateId
  /-- `GACT` (10_state R29). -/
  gact : ActionCode
  /-- `RELKEY` (10_state R30). -/
  relkey : GridMask
  /-- `GOUT` (10_state R31). -/
  gout : ActionCode
  /-- `BANK` (10_state R32). -/
  bank : BankNo
  /-- `LASTMODE` (10_state R33). -/
  lastmode : BitVec 2
  /-- `EVT[0..18]`, entry 0 first (10_state R34). -/
  evt : List EvtEntry
  /-- `EVT_CNT` (10_state R34). -/
  evtCnt : BitVec 5
  /-- `STATUS` (10_state R35); its fields are read and written in Machine/Flags.lean. -/
  status : BitVec 8
  /-- The input pins of this cycle (log entry 2). -/
  pins : Pins
  /-- The input pins of the cycles to come, the next one first (log entry 2). -/
  upcoming : List Pins
  /-- The MODEL's own counter: how many free values the machine has drawn. No command reads it; a run that leaves
  it alone rests on no free value (log entry 16). -/
  freeDraws : Nat
  deriving DecidableEq, Repr

/-- Why a step can stop with a fault. -/
inductive Fault where
  /-- Raised by SAMPLE.c when `WP_c` names a slot that ring c does not have, and by SAMPLE.c and READ.c
  when ring c has not `DEPTH` slots. Safe: such a state breaks the invariant of 10_state R23, no run from
  reset reaches one, and the spec gives commands no meaning there (70_reset R252, log entry 5). -/
  | noSuchSlot
  deriving DecidableEq, Repr

/-- Why a step can be refused. -/
inductive Refusal where
  /-- Raised by an arm of `exec` whose instruction has no meaning yet. Safe. No arm raises it. -/
  | notModelled (mnemonic : String)
  /-- Raised by the listing runner (Machine/Listing.lean) alone, never by `exec` or `step`, when a
  listing names an observation output that the block does not have. Safe (log entry 14). -/
  | noSuchOutput
  deriving DecidableEq, Repr

/-- The block of depth `d` right after reset (70_reset R250), its inputs quiet and nothing to come. -/
def State.initial (d : Nat) : State where
  depth := d
  ringG := List.replicate d 0#16
  ringX := List.replicate d 0#4
  wpG := 0#4
  wpX := 0#4
  stateG := 0#16
  stateX := 0#4
  prevG := 0#16
  prevX := 0#4
  kdG := 0#16
  kuG := 0#16
  kdX := 0#4
  kuX := 0#4
  gstate := 0#6
  gact := 0#4
  relkey := 0#16
  gout := 0#4
  bank := 0#2
  lastmode := 0#2
  evt := List.replicate Config.evtMax 0#9
  evtCnt := 0#5
  status := 0x00#8
  pins := Pins.quiet
  upcoming := []
  freeDraws := 0

/-- The machine right after reset, with the default depth (70_reset R250, 00_scope R7, log entry 1). -/
def State.reset : State :=
  State.initial Config.depthDefault

/-- Write the grid ring and its write pointer. -/
def State.withRingG (s : State) (ring : List GridMask) (wp : BitVec 4) : State :=
  { s with ringG := ring, wpG := wp }

/-- Write the expansion ring and its write pointer. -/
def State.withRingX (s : State) (ring : List ExpMask) (wp : BitVec 4) : State :=
  { s with ringX := ring, wpX := wp }

/-- Write `STATE_G`. -/
def State.withStateG (s : State) (v : GridMask) : State :=
  { s with stateG := v }

/-- Write `STATE_X`. -/
def State.withStateX (s : State) (v : ExpMask) : State :=
  { s with stateX := v }

/-- Write `KD_G`, `KU_G` and `PREV_G`. -/
def State.withEdgesG (s : State) (kd ku prev : GridMask) : State :=
  { s with kdG := kd, kuG := ku, prevG := prev }

/-- Write `KD_X`, `KU_X` and `PREV_X`. -/
def State.withEdgesX (s : State) (kd ku prev : ExpMask) : State :=
  { s with kdX := kd, kuX := ku, prevX := prev }

/-- Write the four gesture registers. -/
def State.withGesture (s : State) (gs : GStateId) (act : ActionCode) (key : GridMask)
    (out : ActionCode) : State :=
  { s with gstate := gs, gact := act, relkey := key, gout := out }

/-- Write the four bank-mapper registers. -/
def State.withMapper (s : State) (b : BankNo) (mode : BitVec 2) (entries : List EvtEntry)
    (count : BitVec 5) : State :=
  { s with bank := b, lastmode := mode, evt := entries, evtCnt := count }

/-- Write all of `STATUS`. -/
def State.withStatus (s : State) (v : BitVec 8) : State :=
  { s with status := v }

/-- Drive the input pins of this cycle. -/
def State.withPins (s : State) (p : Pins) : State :=
  { s with pins := p }

/-- Set what the host drives in the cycles to come. -/
def State.withUpcoming (s : State) (ps : List Pins) : State :=
  { s with upcoming := ps }

/-- Set the counter of drawn free values. -/
def State.withFreeDraws (s : State) (n : Nat) : State :=
  { s with freeDraws := n }

end Sys2Proof.Machine
end

