-- ==== Sys2Proof/Machine/Flags.lean ====
section
/-! DEFINITION. The status register and its three fields (spec/10_state.md R35), the cause codes
(spec/60_exceptions.md R222), and the flag that MAP computes (spec/42_bank_mapper.md R188). -/

namespace Sys2Proof.Machine

/-- The bits of `STATUS` that exist: bits 7:5 are hardwired 0 (10_state R35). -/
def statusMask : BitVec 8 := 0x1F#8

/-- `STATUS` as it reads: the reserved bits 7:5 read as 0 (10_state R35). -/
def State.statusRead (s : State) : BitVec 8 :=
  s.status &&& statusMask

/-- `STATUS.ILLEGAL`, bit 0 (10_state R35). -/
def State.illegalFlag (s : State) : Bool :=
  s.status.getLsbD 0

/-- `STATUS.NOTE_OOR`, bit 1 (10_state R35). -/
def State.noteOor (s : State) : Bool :=
  s.status.getLsbD 1

/-- `STATUS.ICAUSE`, bits 4:2 (10_state R35). -/
def State.icause (s : State) : BitVec 3 :=
  s.status.extractLsb' 2 3

/-- `STATUS` from its fields, bits 7:5 hardwired 0 (10_state R35). -/
def packStatus (illegal oor : Bool) (cause : BitVec 3) : BitVec 8 :=
  0#3 ++ cause ++ BitVec.ofBool oor ++ BitVec.ofBool illegal

/-- Write the three fields of `STATUS`: the one operation through which a command sets it. -/
def State.setStatusFields (s : State) (illegal oor : Bool) (cause : BitVec 3) : State :=
  s.withStatus (packStatus illegal oor cause)

/-- The `ICAUSE` code of a cause (60_exceptions R222). -/
def causeCode : Cause → BitVec 3
  | .opcode => 1#3
  | .field => 2#3
  | .mode => 3#3
  | .port => 4#3

/-- The greatest note of the MIDI range, the threshold of `NOTE_OOR`. The spec marks it as general
knowledge (42_bank_mapper R188, 93_implementation_defined GK1; log entry 10). -/
def midiNoteMax : Nat := 127

/-- Some event of a MAP has a note above 127 (42_bank_mapper R188). -/
def anyNoteOutOfRange (ev : List NoteEvent) : Bool :=
  ev.any (fun e => decide (midiNoteMax < e.note))

/-- Set `STATUS.NOTE_OOR` when an event is out of range; the bit is sticky and the other fields stay
(42_bank_mapper R188, 60_exceptions R223). -/
def State.flagNotes (s : State) (ev : List NoteEvent) : State :=
  if anyNoteOutOfRange ev then s.setStatusFields s.illegalFlag true s.icause else s

end Sys2Proof.Machine
end

