-- ==== Sys2Proof/Machine/Operands.lean ====
section
/-! DEFINITION. The operands of the commands, read from the data buses of this cycle at the width of
spec/30_encoding.md R76: bus bits above an operand's width are ignored. -/

namespace Sys2Proof.Machine

/-- The low 4 bits of a bus, all that an expansion operand uses (30_encoding R76). -/
def expBits (w : Word) : ExpMask := w.extractLsb' 0 4

/-- SAMPLE.G's raw word, `PD[15:0]` (30_encoding R76). -/
def State.rawG (s : State) : GridMask := s.pins.pd

/-- SAMPLE.X's raw word, `PD[3:0]` (30_encoding R76). -/
def State.rawX (s : State) : ExpMask := expBits s.pins.pd

/-- The grid keydown operand `kd` of GESTURE and MAP, `D0[15:0]` (30_encoding R76). -/
def State.opKd (s : State) : GridMask := s.pins.d0

/-- The grid keyup operand `ku` of GESTURE and MAP, `D1[15:0]` (30_encoding R76). -/
def State.opKu (s : State) : GridMask := s.pins.d1

/-- The grid state operand `st` of GESTURE and MAP, `D2[15:0]` (30_encoding R76). -/
def State.opSt (s : State) : GridMask := s.pins.d2

/-- MAP's expansion keydown operand `xkd`, `D3[3:0]` (30_encoding R76). -/
def State.opXkd (s : State) : ExpMask := expBits s.pins.d3

/-- MAP's expansion keyup operand `xku`, `D4[3:0]` (30_encoding R76). -/
def State.opXku (s : State) : ExpMask := expBits s.pins.d4

/-- MAP's expansion state operand `xst`, `D5[3:0]` (30_encoding R76). -/
def State.opXst (s : State) : ExpMask := expBits s.pins.d5

/-- `CFG_BASE_NOTE` as MAP samples it, a non-negative integer (10_state R27, 00_scope R11). -/
def State.cfgBaseNote (s : State) : Nat := s.pins.cfg.baseNote.toNat

/-- `CFG_BANK_NOTE_BASE` as MAP samples it (10_state R27, 00_scope R11). -/
def State.cfgBankNoteBase (s : State) : Nat := s.pins.cfg.bankNoteBase.toNat

/-- `CFG_EXP_EN` as MAP samples it (10_state R27). -/
def State.cfgExpEn (s : State) : Bool := s.pins.cfg.expEn

end Sys2Proof.Machine
end

