-- ==== Sys2Proof/Machine/Ops.lean ====
section
/-! DEFINITION. The named operations that the meanings share: the bit primitives of spec/00_scope.md R10, the
ring accesses of spec/20_memory.md R50, the edge computation, raising Illegal (spec/60_exceptions.md R221) and
clearing it, the reset action (spec/70_reset_and_hazards.md R250, R251), the observation outputs, and the
passage from one cycle's pins to the next. -/

namespace Sys2Proof.Machine

/-- An outcome of the machine. -/
abbrev Result := Host.Outcome State Fault Refusal

/-- Go on with the next state; a fault or a refusal stands. -/
def andThen (r : Result) (f : State → Result) : Result :=
  match r with
  | .next s => f s
  | .fault e => .fault e
  | .refused e => .refused e

/-- `lowestSetBit(m)`: the mask of the lowest set bit, 0 for an empty mask (00_scope R10). -/
def lowestSetBit (m : GridMask) : GridMask :=
  m &&& (~~~m + 1#16)

/-- `ctz(m)`: the index of the lowest set bit of a nonzero mask of bank selectors (00_scope R10). -/
def ctz (m : ExpMask) : BankNo :=
  if m.getLsbD 0 then 0#2 else if m.getLsbD 1 then 1#2 else if m.getLsbD 2 then 2#2 else 3#2

/-- The canonical form of a ring: exactly `DEPTH` slots (10_state R21, R22). -/
def ringWf {w : Nat} (depth : Nat) (ring : List (BitVec w)) : Bool :=
  ring.length == depth

/-- Both rings have the canonical form: what this block has in the place of a memory's well-formedness. -/
def State.memoryWf (s : State) : Bool :=
  ringWf s.depth s.ringG && ringWf s.depth s.ringX

/-- `RingRead`: the word in slot `j`; `none` where the ring has no such slot (20_memory R50). -/
def ringRead {w : Nat} (ring : List (BitVec w)) (j : Nat) : Option (BitVec w) :=
  ring[j]?

/-- `RingWrite`: slot `j` replaced by `v`; `none` where the ring has no such slot (20_memory R50, log
entry 5). -/
def ringWrite {w : Nat} (depth : Nat) (ring : List (BitVec w)) (j : Nat) (v : BitVec w) :
    Option (List (BitVec w)) :=
  if ringWf depth ring && decide (j < depth) then some (ring.set j v) else none

/-- The write pointer after a SAMPLE: `(WP + 1) mod DEPTH` (40_debounce R100). -/
def advancePointer (depth : Nat) (wp : BitVec 4) : BitVec 4 :=
  BitVec.ofNat 4 ((wp.toNat + 1) % depth)

/-- The AND of every slot of a ring, starting from the channel mask (40_debounce R102); `none` where the
ring has not `DEPTH` slots (log entry 5). -/
def windowAnd {w : Nat} (depth : Nat) (ring : List (BitVec w)) : Option (BitVec w) :=
  if ringWf depth ring then some (ring.foldl (· &&& ·) (BitVec.allOnes w)) else none

/-- The keydown edges from the previous to the current stable state (40_debounce R104). -/
def keydownEdges {w : Nat} (prev cur : BitVec w) : BitVec w :=
  (prev ^^^ cur) &&& cur

/-- The keyup edges from the previous to the current stable state (40_debounce R104). -/
def keyupEdges {w : Nat} (prev cur : BitVec w) : BitVec w :=
  (prev ^^^ cur) &&& prev

/-- Raise Illegal: `ILLEGAL` becomes 1, and `ICAUSE` the cause if `ILLEGAL` was 0. Nothing else changes
and the command is discarded (60_exceptions R221). -/
def raiseIllegal (c : Cause) (s : State) : State :=
  s.setStatusFields true s.noteOor (if s.illegalFlag then s.icause else causeCode c)

/-- Clear `STATUS`: the block has no return from an exception, and this is how its record of one ends
(43_control R201, 60_exceptions R223, R227). -/
def clearStatus (s : State) : State :=
  s.setStatusFields false false 0#3

/-- The reset action: every register in its reset state; the depth, the inputs and the model's counter are no
registers and stay (70_reset R250). -/
def resetAction (s : State) : State :=
  (((State.initial s.depth).withPins s.pins).withUpcoming s.upcoming).withFreeDraws s.freeDraws

/-- The value of an observation output, widened to a bus; `none` where the block has no such output
(10_state R40, 30_encoding R81). -/
def State.observe (s : State) : ObsReg → Option Word
  | .ringG j => ringRead s.ringG j
  | .ringX j => (ringRead s.ringX j).map (·.setWidth 16)
  | .wpG => some (s.wpG.setWidth 16)
  | .wpX => some (s.wpX.setWidth 16)
  | .stateG => some s.stateG
  | .stateX => some (s.stateX.setWidth 16)
  | .prevG => some s.prevG
  | .prevX => some (s.prevX.setWidth 16)
  | .kdG => some s.kdG
  | .kuG => some s.kuG
  | .kdX => some (s.kdX.setWidth 16)
  | .kuX => some (s.kuX.setWidth 16)
  | .gstate => some (s.gstate.setWidth 16)
  | .gact => some (s.gact.setWidth 16)
  | .relkey => some s.relkey
  | .gout => some (s.gout.setWidth 16)
  | .bank => some (s.bank.setWidth 16)
  | .lastmode => some (s.lastmode.setWidth 16)
  | .evt k => (s.evt[k]?).map (·.setWidth 16)
  | .evtCnt => some (s.evtCnt.setWidth 16)
  | .status => some (s.statusRead.setWidth 16)

/-- The pins with `RST` low and both ports idle, the buses and the configuration inputs held
(log entry 4). -/
def Pins.released (p : Pins) : Pins :=
  { p with rst := false, pcmd := none, ccmd := none }

/-- The end of a cycle: the pins become those of the next cycle the host drives, or quiet down when it
drives no more (log entries 2 and 4). -/
def advanceCycle (s : State) : State :=
  match s.upcoming with
  | [] => s.withPins s.pins.released
  | p :: rest => (s.withPins p).withUpcoming rest

/-- The pins with one command word on the port that may issue it, the other port idle and `RST` low: the
two SAMPLE words on the producer port, every other word on the consumer port (log entry 7). -/
def Pins.present (p : Pins) (w : Word) : Pins :=
  if isSampleWord w then { p with rst := false, pcmd := some w, ccmd := none }
  else { p with rst := false, pcmd := none, ccmd := some w }

end Sys2Proof.Machine
end

