-- ==== Sys2Proof/Machine/BankMapper.lean ====
section
/-! DEFINITION. The bank mapper: the NoteTable and MAP.OFF, MAP.INT and MAP.EXT (spec/42_bank_mapper.md R170).
The NoteTable and the strides are the source's unaudited literals (log entry 11). -/

namespace Sys2Proof.Machine

/-- The NoteTable (10_state R37, 42_bank_mapper R171). -/
def noteTable : List Nat :=
  [12, 13, 14, 15, 8, 9, 10, 11, 4, 5, 6, 7, 0, 1, 2, 3]

/-- `NT[i]` for a key index 0..15; the table has no other entries and no scan names one. -/
def noteOffset (i : Nat) : Nat :=
  noteTable.getD i 0

/-- The key index at a row and column of the grid, row 0 the top one (42_bank_mapper R172). -/
def keyAt (row col : Nat) : Nat :=
  4 * row + col

/-- The code of a bank mode (30_encoding R79). -/
def modeCode : BankMode → BitVec 2
  | .off => 0#2
  | .internal => 1#2
  | .external => 2#2

/-- What a mode selects with and which keys are notes (42_bank_mapper R170, the case of m). -/
structure Selectors where
  /-- Bank-select keydown mask. -/
  bsd : ExpMask
  /-- Bank-select keyup mask. -/
  bsu : ExpMask
  /-- Bank-select state mask. -/
  bss : ExpMask
  /-- The note keys. -/
  nk : GridMask
  /-- The distance between the windows of two banks. -/
  stride : Nat
  deriving DecidableEq, Repr

/-- The stride of Internal mode (42_bank_mapper R177). -/
def strideInternal : Nat := 12

/-- The stride of External mode (42_bank_mapper R175). -/
def strideExternal : Nat := 16

/-- The selectors and the window of a mode, from the operands of this cycle
(42_bank_mapper R174, R175, R177). -/
def State.selectors (s : State) : BankMode → Selectors
  | .off => { bsd := 0#4, bsu := 0#4, bss := 0#4, nk := 0xFFFF#16, stride := 0 }
  | .internal =>
    { bsd := expBits s.opKd, bsu := expBits s.opKu, bss := expBits s.opSt, nk := 0xFFF0#16,
      stride := strideInternal }
  | .external =>
    if s.cfgExpEn then
      { bsd := s.opXkd, bsu := s.opXku, bss := s.opXst, nk := 0xFFFF#16, stride := strideExternal }
    else
      { bsd := 0#4, bsu := 0#4, bss := 0#4, nk := 0xFFFF#16, stride := strideExternal }

/-- The working bank at the start of a MAP: 0 on a mode entry and in Off mode, else `BANK`
(42_bank_mapper R173, R174). -/
def State.entryBank (s : State) (m : BankMode) : BankNo :=
  if modeCode m != s.lastmode || m == .off then 0#2 else s.bank

/-- The identity note of a bank (42_bank_mapper R176). -/
def identityNote (bankNoteBase : Nat) (b : BankNo) : Nat :=
  bankNoteBase + b.toNat

/-- Step (a): the bank-select keyup event (42_bank_mapper R178). -/
def keyupEvents (bankNoteBase : Nat) (b : BankNo) (bsu : ExpMask) : List NoteEvent :=
  if bsu.getLsbD b.toNat then [⟨false, identityNote bankNoteBase b⟩] else []

/-- Step (b): the bank that a bank-select keydown leaves in force (42_bank_mapper R179). -/
def bankAfter (b : BankNo) (bsd : ExpMask) : BankNo :=
  if bsd == 0#4 then b else ctz bsd

/-- Step (b): the events of a bank-select keydown, the forced note-off before the note-on
(42_bank_mapper R179). -/
def keydownEvents (bankNoteBase : Nat) (b : BankNo) (bsd bss : ExpMask) : List NoteEvent :=
  if bsd == 0#4 then []
  else
    (if ctz bsd != b && bss.getLsbD b.toNat then [⟨false, identityNote bankNoteBase b⟩] else []) ++
      [⟨true, identityNote bankNoteBase (ctz bsd)⟩]

/-- Step (c): one event for every note key set in a mask, ascending key index
(42_bank_mapper R182, R185). -/
def noteKeyEvents (on : Bool) (base : Nat) (nk mask : GridMask) : List NoteEvent :=
  (List.range Config.gridW).flatMap fun i =>
    if nk.getLsbD i && mask.getLsbD i then [⟨on, base + noteOffset i⟩] else []

/-- The events of a MAP in mode `m`, in the order of 42_bank_mapper R180. -/
def State.mapEvents (s : State) (m : BankMode) : List NoteEvent :=
  let sel := s.selectors m
  let b := s.entryBank m
  let base := s.cfgBaseNote + (bankAfter b sel.bsd).toNat * sel.stride
  keyupEvents s.cfgBankNoteBase b sel.bsu ++ keydownEvents s.cfgBankNoteBase b sel.bsd sel.bss ++
    noteKeyEvents false base sel.nk s.opKu ++ noteKeyEvents true base sel.nk s.opKd

/-- The bank that a MAP in mode `m` commits (42_bank_mapper R173, R174, R179). -/
def State.mapBank (s : State) (m : BankMode) : BankNo :=
  bankAfter (s.entryBank m) (s.selectors m).bsd

/-- The buffer entry of an event, `{ON, NOTE[7:0]}` (10_state R34). -/
def eventEntry (e : NoteEvent) : EvtEntry :=
  BitVec.ofBool e.on ++ BitVec.ofNat 8 e.note

/-- The whole event buffer: the first 19 events, and 0x000 in every later entry (42_bank_mapper R170, R184). -/
def eventBuffer (ev : List NoteEvent) : List EvtEntry :=
  (List.range Config.evtMax).map fun k => ((ev[k]?).map eventEntry).getD 0#9

/-- The free value of `EVT_CNT` for a MAP in mode `m`, a function of what the MAP computes with
(00_scope R12, log entry 16). -/
def State.freeEventCount (s : State) (m : BankMode) : BitVec 5 :=
  let sel := s.selectors m
  Config.freeEvtCnt (modeCode m) (s.entryBank m) s.opKd s.opKu s.opSt sel.bsd sel.bsu sel.bss s.cfgBaseNote
    s.cfgBankNoteBase

/-- `EVT_CNT` after a MAP of `n` events in mode `m`: `n` itself where its 5 bits hold it, else a free value. Operands
with `kd & ku` not 0 can give up to 35 events (42_bank_mapper R170, R189; 70_reset R260; log entry 16). -/
def State.eventCount (s : State) (m : BankMode) (n : Nat) : BitVec 5 :=
  if n < 32 then BitVec.ofNat 5 n else s.freeEventCount m

/-- The counter of drawn free values after a MAP of `n` events. No command reads it (log entry 16). -/
def State.drawsAfterMap (s : State) (n : Nat) : Nat :=
  if n < 32 then s.freeDraws else s.freeDraws + 1

/-- The commit of a MAP (42_bank_mapper R170, R184, R188). -/
def State.commitMap (s : State) (m : BankMode) : State :=
  let ev := s.mapEvents m
  ((s.withMapper (s.mapBank m) (modeCode m) (eventBuffer ev) (s.eventCount m ev.length)).withFreeDraws
    (s.drawsAfterMap ev.length)).flagNotes ev

/-- MAP.OFF (42_bank_mapper R170, R174). -/
def execMapOff (s : State) : Result :=
  .next (s.commitMap .off)

/-- MAP.INT (42_bank_mapper R170, R177). -/
def execMapInt (s : State) : Result :=
  .next (s.commitMap .internal)

/-- MAP.EXT (42_bank_mapper R170, R175). -/
def execMapExt (s : State) : Result :=
  .next (s.commitMap .external)

end Sys2Proof.Machine
end

