-- ==== Sys2Proof/Machine/Control.lean ====
section
/-! DEFINITION. NOP and CLRSTAT (spec/43_control.md). -/

namespace Sys2Proof.Machine

/-- NOP: no state is read or written (43_control R200). -/
def execNop (s : State) : Result :=
  .next s

/-- CLRSTAT (43_control R201). -/
def execClrstat (s : State) : Result :=
  .next (clearStatus s)

end Sys2Proof.Machine
end

