-- ==== Sys2Proof/Machine/Debounce.lean ====
section
/-! DEFINITION. SAMPLE, READ and CALC on the two debouncer channels (spec/40_debounce.md). -/

namespace Sys2Proof.Machine

/-- SAMPLE.G (40_debounce R100). -/
def execSampleG (s : State) : Result :=
  match ringWrite s.depth s.ringG s.wpG.toNat s.rawG with
  | some ring => .next (s.withRingG ring (advancePointer s.depth s.wpG))
  | none => .fault .noSuchSlot

/-- SAMPLE.X (40_debounce R100). -/
def execSampleX (s : State) : Result :=
  match ringWrite s.depth s.ringX s.wpX.toNat s.rawX with
  | some ring => .next (s.withRingX ring (advancePointer s.depth s.wpX))
  | none => .fault .noSuchSlot

/-- READ.G (40_debounce R102). -/
def execReadG (s : State) : Result :=
  match windowAnd s.depth s.ringG with
  | some v => .next (s.withStateG v)
  | none => .fault .noSuchSlot

/-- READ.X (40_debounce R102). -/
def execReadX (s : State) : Result :=
  match windowAnd s.depth s.ringX with
  | some v => .next (s.withStateX v)
  | none => .fault .noSuchSlot

/-- CALC.G (40_debounce R104). -/
def execCalcG (s : State) : Result :=
  .next (s.withEdgesG (keydownEdges s.prevG s.stateG) (keyupEdges s.prevG s.stateG) s.stateG)

/-- CALC.X (40_debounce R104). -/
def execCalcX (s : State) : Result :=
  .next (s.withEdgesX (keydownEdges s.prevX s.stateX) (keyupEdges s.prevX s.stateX) s.stateX)

end Sys2Proof.Machine
end

