-- ==== Sys2Proof/Machine/GestureTable.lean ====
section
/-! DEFINITION. The action codes (spec/30_encoding.md R78), the gesture table (spec/41_gesture.md R131) and its
ROM words (spec/30_encoding.md R80). The table's numbers are the source's unaudited literals (log entry 11). -/

namespace Sys2Proof.Machine

/-- Action code NONE (30_encoding R78). -/
def actNone : ActionCode := 0#4

/-- Action code A_DOWN (30_encoding R78). -/
def actADown : ActionCode := 1#4

/-- Action code A_UP (30_encoding R78). -/
def actAUp : ActionCode := 2#4

/-- Action code B_DOWN (30_encoding R78). -/
def actBDown : ActionCode := 3#4

/-- Action code B_UP (30_encoding R78). -/
def actBUp : ActionCode := 4#4

/-- Action code C_DOWN (30_encoding R78). -/
def actCDown : ActionCode := 5#4

/-- Action code C_UP (30_encoding R78). -/
def actCUp : ActionCode := 6#4

/-- Action code D_DOWN (30_encoding R78). -/
def actDDown : ActionCode := 7#4

/-- Action code D_UP (30_encoding R78). -/
def actDUp : ActionCode := 8#4

/-- Action code E_DOWN (30_encoding R78). -/
def actEDown : ActionCode := 9#4

/-- Action code E_UP (30_encoding R78). -/
def actEUp : ActionCode := 10#4

/-- The code is in DOWNS: A_DOWN, B_DOWN, C_DOWN, D_DOWN or E_DOWN (41_gesture R130, R132). -/
def isDown (a : ActionCode) : Bool :=
  a == actADown || a == actBDown || a == actCDown || a == actDDown || a == actEDown

/-- The RELEASE action that matches a DOWN code: the code plus one (30_encoding R78). -/
def releaseOf (a : ActionCode) : ActionCode :=
  a + 1#4

/-- Rows 0 to 21 of the gesture table (41_gesture R131). -/
def gestureRowsEarly : List GestureRow := [
  ⟨0#6, 12#4, .down, 1#6, actNone⟩,
  ⟨0#6, 9#4, .down, 5#6, actNone⟩,
  ⟨0#6, 8#4, .down, 9#6, actNone⟩,
  ⟨0#6, 4#4, .down, 18#6, actNone⟩,
  ⟨1#6, 13#4, .down, 2#6, actNone⟩,
  ⟨2#6, 14#4, .down, 3#6, actNone⟩,
  ⟨3#6, 15#4, .down, 4#6, actADown⟩,
  ⟨4#6, 15#4, .up, 0#6, actAUp⟩,
  ⟨5#6, 10#4, .down, 6#6, actNone⟩,
  ⟨6#6, 5#4, .down, 7#6, actNone⟩,
  ⟨7#6, 6#4, .down, 8#6, actCDown⟩,
  ⟨8#6, 6#4, .up, 0#6, actCUp⟩,
  ⟨9#6, 8#4, .up, 10#6, actNone⟩,
  ⟨10#6, 9#4, .down, 11#6, actNone⟩,
  ⟨11#6, 9#4, .up, 12#6, actNone⟩,
  ⟨11#6, 10#4, .down, 6#6, actNone⟩,
  ⟨12#6, 10#4, .down, 13#6, actNone⟩,
  ⟨13#6, 10#4, .up, 14#6, actNone⟩,
  ⟨14#6, 10#4, .down, 15#6, actNone⟩,
  ⟨15#6, 10#4, .up, 16#6, actNone⟩,
  ⟨16#6, 11#4, .down, 17#6, actDDown⟩,
  ⟨17#6, 11#4, .up, 0#6, actDUp⟩]

/-- Rows 22 to 43 of the gesture table (41_gesture R131). -/
def gestureRowsLate : List GestureRow := [
  ⟨18#6, 4#4, .up, 19#6, actNone⟩,
  ⟨19#6, 4#4, .down, 20#6, actNone⟩,
  ⟨20#6, 4#4, .up, 21#6, actNone⟩,
  ⟨21#6, 12#4, .down, 22#6, actNone⟩,
  ⟨22#6, 12#4, .up, 23#6, actNone⟩,
  ⟨23#6, 12#4, .down, 24#6, actNone⟩,
  ⟨24#6, 12#4, .up, 25#6, actNone⟩,
  ⟨25#6, 8#4, .down, 26#6, actNone⟩,
  ⟨26#6, 8#4, .up, 27#6, actNone⟩,
  ⟨26#6, 10#4, .down, 6#6, actNone⟩,
  ⟨27#6, 9#4, .down, 28#6, actNone⟩,
  ⟨28#6, 9#4, .up, 29#6, actNone⟩,
  ⟨29#6, 8#4, .down, 30#6, actNone⟩,
  ⟨30#6, 8#4, .up, 31#6, actNone⟩,
  ⟨31#6, 9#4, .down, 32#6, actNone⟩,
  ⟨31#6, 10#4, .down, 13#6, actNone⟩,
  ⟨32#6, 9#4, .up, 33#6, actNone⟩,
  ⟨33#6, 11#4, .down, 34#6, actNone⟩,
  ⟨33#6, 9#4, .down, 11#6, actNone⟩,
  ⟨34#6, 11#4, .up, 35#6, actNone⟩,
  ⟨35#6, 10#4, .down, 36#6, actEDown⟩,
  ⟨36#6, 10#4, .up, 0#6, actEUp⟩]

/-- The gesture table, rows 0 to 43 in order (10_state R36, 41_gesture R131). -/
def gestureTable : List GestureRow :=
  gestureRowsEarly ++ gestureRowsLate

/-- The code of an edge kind in a ROM word (30_encoding R80). -/
def kindCode : EdgeKind → BitVec 2
  | .down => 0#2
  | .up => 1#2
  | .state => 2#2

/-- The edge kind of a code; code 3 is unused (30_encoding R80). -/
def kindOfCode (c : BitVec 2) : Option EdgeKind :=
  match c.toNat with
  | 0 => some .down
  | 1 => some .up
  | 2 => some .state
  | _ => none

/-- A row as a 22-bit ROM word (30_encoding R80). -/
def romWord (r : GestureRow) : BitVec 22 :=
  r.state ++ r.key ++ kindCode r.kind ++ r.next ++ r.action

/-- The row of a ROM word; none for the unused kind (30_encoding R80). -/
def rowOfRomWord (w : BitVec 22) : Option GestureRow :=
  (kindOfCode (w.extractLsb' 10 2)).map fun k =>
    ⟨w.extractLsb' 16 6, w.extractLsb' 12 4, k, w.extractLsb' 4 6, w.extractLsb' 0 4⟩

end Sys2Proof.Machine
end

