-- ==== Sys2Proof/Machine/Gesture.lean ====
section
/-! DEFINITION. The gesture engine: GESTURE (spec/41_gesture.md R130), step by step. -/

namespace Sys2Proof.Machine

/-- The four gesture registers (10_state R28 to R31). -/
structure GestureRegs where
  gstate : GStateId
  gact : ActionCode
  relkey : GridMask
  gout : ActionCode
  deriving DecidableEq, Repr

/-- The chord of combo B: keys 8, 9, 10 and 11 and no other (41_gesture R135). -/
def chordMask : GridMask := 0x0F00#16

/-- The mask that a row's key is tested in (41_gesture R140). -/
def rowMask (kind : EdgeKind) (kd ku st : GridMask) : GridMask :=
  match kind with
  | .down => kd
  | .up => ku
  | .state => st

/-- A row matches: it belongs to the state, and its key is set in its mask (41_gesture R140). -/
def rowMatches (gs : GStateId) (kd ku st : GridMask) (r : GestureRow) : Bool :=
  r.state == gs && (rowMask r.kind kd ku st).getLsbD r.key.toNat

/-- The table walk: the first row that matches, in ascending order (41_gesture R140). -/
def tableWalk (gs : GStateId) (kd ku st : GridMask) : Option GestureRow :=
  gestureTable.find? (rowMatches gs kd ku st)

/-- Steps 4 and 5: adopt the first matching row, or go idle, and arm the release watch
(41_gesture R140, R142). -/
def walkAndArm (g : GestureRegs) (kd ku st : GridMask) : GestureRegs :=
  let (gs, act) := match tableWalk g.gstate kd ku st with
    | some r => (r.next, r.action)
    | none => (0#6, actNone)
  { gstate := gs, gact := act, relkey := if act == actNone then g.relkey else lowestSetBit kd,
    gout := act }

/-- Step 3, the armed-release check: the release key tested in the live state (41_gesture R138, R139). -/
def armedRelease (g : GestureRegs) (st : GridMask) : GestureRegs :=
  if st &&& g.relkey == 0#16 then
    { g with gstate := 0#6, gact := releaseOf g.gact, gout := releaseOf g.gact }
  else
    { g with gout := actNone }

/-- The whole procedure of GESTURE, steps 1 to 5 (41_gesture R130). -/
def gestureStep (g : GestureRegs) (kd ku st : GridMask) : GestureRegs :=
  if kd == 0#16 && ku == 0#16 then
    { g with gout := actNone }
  else if st == chordMask && g.gact != actBDown then
    { g with gact := actBDown, relkey := lowestSetBit kd, gout := actBDown }
  else if isDown g.gact then
    armedRelease g st
  else
    walkAndArm g kd ku st

/-- The gesture registers of a state. -/
def State.gestureRegs (s : State) : GestureRegs :=
  { gstate := s.gstate, gact := s.gact, relkey := s.relkey, gout := s.gout }

/-- GESTURE (41_gesture R130). -/
def execGesture (s : State) : Result :=
  let g := gestureStep s.gestureRegs s.opKd s.opKu s.opSt
  .next (s.withGesture g.gstate g.gact g.relkey g.gout)

end Sys2Proof.Machine
end

