-- ==== Sys2Proof/Machine/Dispatch.lean ====
section
/-! DEFINITION. The effect of each legal command, one arm a command. -/

namespace Sys2Proof.Machine

def exec (i : Instr) (s : State) : Host.Outcome State Fault Refusal :=
  match i with
  | .nop => Sys2Proof.Machine.execNop s
  | .sampleG => Sys2Proof.Machine.execSampleG s
  | .sampleX => Sys2Proof.Machine.execSampleX s
  | .readG => Sys2Proof.Machine.execReadG s
  | .readX => Sys2Proof.Machine.execReadX s
  | .calcG => Sys2Proof.Machine.execCalcG s
  | .calcX => Sys2Proof.Machine.execCalcX s
  | .gesture => Sys2Proof.Machine.execGesture s
  | .mapOff => Sys2Proof.Machine.execMapOff s
  | .mapInt => Sys2Proof.Machine.execMapInt s
  | .mapExt => Sys2Proof.Machine.execMapExt s
  | .clrstat => Sys2Proof.Machine.execClrstat s

end Sys2Proof.Machine
end

