-- ==== Sys2Proof/Machine/Cycle.lean ====
section
/-! DEFINITION. What a port does with its command in a cycle, and the order of the two ports
(spec/20_memory.md R56, spec/70_reset_and_hazards.md R251). -/

namespace Sys2Proof.Machine

/-- What a port does with a command word: run the command it decodes to, or raise Illegal
(30_encoding R74, R75, R77; 60_exceptions R221, R222). -/
def runWord (p : Port) (w : Word) (s : State) : Result :=
  match decode p w with
  | .legal i => exec i s
  | .illegal c => .next (raiseIllegal c s)

/-- What a port does in a cycle: an idle port executes nothing and raises nothing (30_encoding R70). -/
def runPort (p : Port) (cmd : Option Word) (s : State) : Result :=
  match cmd with
  | none => .next s
  | some w => runWord p w s

/-- Both ports' commands of a cycle: the consumer's completes first, then the producer's runs against the
state it left (20_memory R56). -/
def runCommands (s : State) : Result :=
  andThen (runPort .consumer s.pins.ccmd s) (runPort .producer s.pins.pcmd)

/-- The work of one cycle: the reset action with `RST` high, both commands discarded, else the two commands
(20_memory R56, 70_reset R251). -/
def runCycle (s : State) : Result :=
  if s.pins.rst then .next (resetAction s) else runCommands s

/-- One cycle, and then the pins of the next one (log entries 2, 4 and 6). -/
def cycle (s : State) : Result :=
  andThen (runCycle s) (fun t => .next (advanceCycle t))

end Sys2Proof.Machine
end

