-- ==== Sys2Proof/Machine/Step.lean ====
section
/-! DEFINITION. One step of the machine is one cycle of the block (spec/20_memory.md R56), and the way a single
command word is presented to it. -/

namespace Sys2Proof.Machine

/-- One step: one cycle (20_memory R56, 70_reset R265, log entry 6). -/
def step (s : State) : Host.Outcome State Fault Refusal :=
  cycle s

/-- The state with one instruction, given as the opcode table numbers its bits, on the port that may issue
it, so that the next step runs exactly it; the data buses stay as they are (log entries 2 and 7). -/
def State.withFetchWord (s : State) (nbits w : Nat) : State :=
  s.withPins (s.pins.present (tableWord nbits w))

end Sys2Proof.Machine
end

