-- ==== Sys2Proof/Machine/Listing.lean ====
section
/-! DEFINITION. The host's side of a listing (spec/30_encoding.md R81, R82, spec/70_reset_and_hazards.md R255):
operands taken from the observation outputs, and the pseudo-instructions and the canonical poll expanded into
lines. The block sees only the pins that result. -/

namespace Sys2Proof.Machine

/-- The bus value of an operand: a literal, or what the observation outputs show when the command issues
(30_encoding R81, 10_state R40). -/
def State.operandValue (s : State) : Operand → Option Word
  | .lit w => some w
  | .reg r => s.observe r

/-- The producer port's word and data bus for a drive; an idle port's bus is driven 0 (30_encoding R70,
R81). -/
def State.producerPins (s : State) : Option ProducerDrive → Option (Option Word × Word)
  | none => some (none, 0#16)
  | some p => (s.operandValue p.pd).map fun v => (some p.word, v)

/-- The pins that a line drives when it issues in a state; none where an operand names no output
(30_encoding R81, log entry 14). -/
def State.linePins (s : State) (l : Line) : Option Pins := do
  let (pcmd, pd) ← s.producerPins l.producer
  let c := l.consumer.getD { word := 0 }
  let d0 ← s.operandValue c.d0
  let d1 ← s.operandValue c.d1
  let d2 ← s.operandValue c.d2
  let d3 ← s.operandValue c.d3
  let d4 ← s.operandValue c.d4
  let d5 ← s.operandValue c.d5
  return { rst := l.rst, pcmd := pcmd, pd := pd, ccmd := l.consumer.map (·.word), d0 := d0, d1 := d1,
           d2 := d2, d3 := d3, d4 := d4, d5 := d5, cfg := l.cfg.getD s.pins.cfg }

/-- One line of a listing: its pins are driven, and the block makes one step. -/
def runLine (l : Line) (s : State) : Result :=
  match s.linePins l with
  | some p => step (s.withPins p)
  | none => .refused .noSuchOutput

/-- The lines of a listing, one a cycle. -/
def runListing : List Line → State → Result
  | [], s => .next s
  | l :: rest, s => andThen (runLine l s) (runListing rest)

/-- A line with one command on the consumer port and no operands (30_encoding R81). -/
def consumerLine (i : Instr) : Line :=
  { consumer := some { word := encode i } }

/-- `SAMPLE.G raw` and `SAMPLE.X raw`: a line with one command on the producer port (30_encoding R81). -/
def producerLine (i : Instr) (raw : Operand) : Line :=
  { producer := some { word := encode i, pd := raw } }

/-- `POLL.G`: READ.G, then CALC.G (30_encoding R82). -/
def pollG : List Line := [consumerLine .readG, consumerLine .calcG]

/-- `POLL.X`: READ.X, then CALC.X (30_encoding R82). -/
def pollX : List Line := [consumerLine .readX, consumerLine .calcX]

/-- A command fed the grid's edge triple from the observation outputs: `GESTURE.G`, `MAP.OFF.G` and
`MAP.INT.G` (30_encoding R82). -/
def gridTripleLine (i : Instr) : Line :=
  { consumer := some { word := encode i, d0 := .reg .kdG, d1 := .reg .kuG, d2 := .reg .stateG } }

/-- `GESTURE.G` (30_encoding R82). -/
def gestureG : Line := gridTripleLine .gesture

/-- `MAP.OFF.G` (30_encoding R82). -/
def mapOffG : Line := gridTripleLine .mapOff

/-- `MAP.INT.G` (30_encoding R82). -/
def mapIntG : Line := gridTripleLine .mapInt

/-- `MAP.EXT.GX` (30_encoding R82). -/
def mapExtGX : Line :=
  { consumer := some { word := encode .mapExt, d0 := .reg .kdG, d1 := .reg .kuG, d2 := .reg .stateG,
                       d3 := .reg .kdX, d4 := .reg .kuX, d5 := .reg .stateX } }

/-- `MAP.EXT @KD_G, @KU_G, @STATE_G`: the expansion operands omitted, for a MAP.EXT that will not use the expansion
port (70_reset R255, 30_encoding R81). -/
def mapExtG : Line := gridTripleLine .mapExt

/-- The poll's MAP will use the expansion port (70_reset R255). -/
def usesExpansion : PollMap → Bool
  | .off => false
  | .internal => false
  | .external useExpansion => useExpansion

/-- The MAP line of a poll (70_reset R255, 30_encoding R82). -/
def mapLine : PollMap → Line
  | .off => mapOffG
  | .internal => mapIntG
  | .external useExpansion => if useExpansion then mapExtGX else mapExtG

/-- The canonical poll: POLL.G, then POLL.X only when MAP.EXT will use the expansion port, then GESTURE.G and a
MAP, both optional (70_reset R255). -/
def canonicalPoll (useGesture : Bool) (map : Option PollMap) : List Line :=
  pollG ++ (if (map.map usesExpansion).getD false then pollX else []) ++
    (if useGesture then [gestureG] else []) ++ (map.map mapLine).toList

end Sys2Proof.Machine
end

