-- ==== Sys2Proof/Safety.lean ====
section
/-! DEFINITION. The invariant that the spec states of the registers, and what a safe run is: one that no fault
and no refusal ends. -/

namespace Sys2Proof.Machine

/-- A mask that is empty or has exactly one bit set (10_state R30, 90_conflicts C9). -/
def isKeyOrEmpty (m : GridMask) : Prop :=
  m = 0#16 ∨ ∃ k : Nat, k < 16 ∧ m = BitVec.twoPow 16 k

/-- The rings and their pointers (10_state R21, R22, R23; 00_scope R7). -/
structure RingsInv (s : State) : Prop where
  depth_legal : depthLegal s.depth = true
  rings_wf : s.memoryWf = true
  wpG_lt : s.wpG.toNat < s.depth
  wpX_lt : s.wpX.toNat < s.depth

/-- The edge registers, as every CALC leaves them (40_debounce R107): no key has both edges, a keydown is
held in the state that CALC saved, and a keyup is not. -/
structure EdgesInv (s : State) : Prop where
  disjointG : s.kdG &&& s.kuG = 0#16
  downG_held : s.kdG &&& s.prevG = s.kdG
  upG_released : s.kuG &&& s.prevG = 0#16
  disjointX : s.kdX &&& s.kuX = 0#4
  downX_held : s.kdX &&& s.prevX = s.kdX
  upX_released : s.kuX &&& s.prevX = 0#4

/-- The gesture registers (10_state R28 to R31; 41_gesture R133). -/
structure GestureInv (s : State) : Prop where
  gstate_legal : s.gstate.toNat < Config.numGStates
  gact_legal : s.gact.toNat ≤ 10
  relkey_legal : isKeyOrEmpty s.relkey
  gout_legal : s.gout.toNat ≤ 10

/-- The engine is armed in the four states whose rows carry an UP action, so that those rows never fire
(41_gesture R143). -/
def ReleaseRowsIdle (s : State) : Prop :=
  s.gstate ∈ [4#6, 8#6, 17#6, 36#6] → isDown s.gact = true

/-- The bank-mapper registers (10_state R33, R34; 42_bank_mapper R174, R187). That `EVT_CNT` counts the entries
in use is no invariant: 70_reset R260 makes it conditional on consistent operands (log entry 16). -/
structure MapperInv (s : State) : Prop where
  lastmode_legal : s.lastmode ≠ 3#2
  off_bank_zero : s.lastmode = 0#2 → s.bank = 0#2
  evt_length : s.evt.length = Config.evtMax
  note_le : ∀ e ∈ s.evt, (e.extractLsb' 0 8).toNat ≤ 190

/-- The status register: reserved bits 0, a cause code that exists, and a cause exactly while `ILLEGAL` is
set (10_state R35, 60_exceptions R222). -/
structure StatusInv (s : State) : Prop where
  reserved_zero : s.status.extractLsb' 5 3 = 0#3
  icause_legal : s.icause.toNat ≤ 4
  icause_iff : s.icause = 0#3 ↔ s.illegalFlag = false

/-- The invariant of the machine. -/
structure BlockInv (s : State) : Prop where
  rings : RingsInv s
  edges : EdgesInv s
  gesture : GestureInv s
  releaseRows : ReleaseRowsIdle s
  mapper : MapperInv s
  status : StatusInv s

/-- A safe run of `k` steps: no fault and no refusal ends it. -/
def SafeRun (k : Nat) (s : State) : Prop :=
  ∃ t : State, Host.Core.run Sys2Proof.core k s = .next t

/-- `k` is the lowest-indexed set bit of a mask. -/
def LowestBit {w : Nat} (m : BitVec w) (k : Nat) : Prop :=
  k < w ∧ m.getLsbD k = true ∧ ∀ j, j < k → m.getLsbD j = false

/-- The release key that arming takes from a keydown mask: its lowest set bit alone, or nothing when the
mask is empty (41_gesture R136, R141). -/
def ArmingKey (kd key : GridMask) : Prop :=
  (kd = 0#16 ∧ key = 0#16) ∨ ∃ k, LowestBit kd k ∧ key = BitVec.twoPow 16 k

/-- The poll has an edge (41_gesture R134). -/
def HasEdge (s : State) : Prop :=
  s.opKd ≠ 0#16 ∨ s.opKu ≠ 0#16

/-- The state with GESTURE's and MAP's grid operands driven. -/
def State.driveGrid (s : State) (kd ku st : GridMask) : State :=
  s.withPins { s.pins with d0 := kd, d1 := ku, d2 := st }

/-- SAMPLE.G of each raw word in turn. -/
def sampleManyG : List Word → State → Result
  | [], s => .next s
  | r :: rest, s => andThen (exec .sampleG (s.withPins { s.pins with pd := r })) (sampleManyG rest)

/-- SAMPLE.X of each raw word in turn. -/
def sampleManyX : List Word → State → Result
  | [], s => .next s
  | r :: rest, s => andThen (exec .sampleX (s.withPins { s.pins with pd := r })) (sampleManyX rest)

/-- The `d` most recent of a list of words, preceded by reset values where there are fewer
(40_debounce R101). -/
def lastWords {w : Nat} (d : Nat) (raws : List (BitVec w)) : List (BitVec w) :=
  (List.replicate d 0#w ++ raws).drop raws.length

/-- GESTURE of each poll's keydown, keyup and state masks in turn. -/
def gesturePolls : List (GridMask × GridMask × GridMask) → State → Result
  | [], s => .next s
  | (kd, ku, st) :: rest, s => andThen (exec .gesture (s.driveGrid kd ku st)) (gesturePolls rest)

/-- The polls of a list of single edges, a key and whether it goes down, with the live state that `st`
gives each poll (41_gesture R144). -/
def singleEdgePolls : List (Nat × Bool) → (Nat → GridMask) → List (GridMask × GridMask × GridMask)
  | [], _ => []
  | (key, true) :: rest, st =>
    (BitVec.twoPow 16 key, 0#16, st 0) :: singleEdgePolls rest (fun n => st (n + 1))
  | (key, false) :: rest, st =>
    (0#16, BitVec.twoPow 16 key, st 0) :: singleEdgePolls rest (fun n => st (n + 1))

/-- From idle and not armed, the edges lead to a state id and leave no action armed. -/
def LeadsTo (edges : List (Nat × Bool)) (gs : GStateId) : Prop :=
  ∀ (s : State) (st : Nat → GridMask), s.gstate = 0#6 → s.gact ∉ [1#4, 3#4, 5#4, 7#4, 9#4] →
    (∀ n, st n ≠ 0x0F00#16) →
    ∃ t, gesturePolls (singleEdgePolls edges st) s = .next t ∧ t.gstate = gs ∧ t.gact = 0#4

/-- From idle and not armed, the edges arm an action, and releasing a key then returns the action's UP code
and leaves the engine idle. -/
def Recognises (edges : List (Nat × Bool)) (down : ActionCode) (key : Nat) : Prop :=
  ∀ (s : State) (st : Nat → GridMask), s.gstate = 0#6 → s.gact ∉ [1#4, 3#4, 5#4, 7#4, 9#4] →
    (∀ n, st n ≠ 0x0F00#16) →
    ∃ t, gesturePolls (singleEdgePolls edges st) s = .next t ∧ t.gact = down ∧ t.gout = down ∧
      t.relkey = BitVec.twoPow 16 key ∧
      ∀ live : GridMask, live ≠ 0x0F00#16 → live.getLsbD key = false →
        ∃ u, exec .gesture (t.driveGrid 0#16 (BitVec.twoPow 16 key) live) = .next u ∧
          u.gout = down + 1#4 ∧ u.gstate = 0#6

/-- The event buffer holds the first 19 of a list of events, on or off and the note, and 0x000 after them, and
`EVT_CNT` counts them where its 5 bits can (10_state R34, 42_bank_mapper R184). -/
def BufferHolds (t : State) (ev : List (Bool × Nat)) : Prop :=
  (ev.length < 32 → t.evtCnt.toNat = ev.length) ∧ t.evt.length = 19 ∧
    (∀ (k : Nat) (e : Bool × Nat), k < 19 → ev[k]? = some e →
      t.evt[k]? = some (BitVec.ofNat 9 ((if e.1 then 256 else 0) + e.2))) ∧
    ∀ k, ev.length ≤ k → k < 19 → t.evt[k]? = some 0#9

/-- The events of the note keys set in a mask, from key `first` up, ascending key index; the offsets are the
NoteTable as 42_bank_mapper R171 lists it (R182, R185). -/
def keyEventsFrom (first : Nat) (on : Bool) (base : Nat) (mask : GridMask) : List (Bool × Nat) :=
  ((List.range 16).filter fun i => decide (first ≤ i) && mask.getLsbD i).map fun i =>
    (on, base + [12, 13, 14, 15, 8, 9, 10, 11, 4, 5, 6, 7, 0, 1, 2, 3].getD i 0)

/-- The bank-select events of a poll with active bank `b` and, after it, bank `nb`
(42_bank_mapper R178, R179, R180). -/
def bankSelectEvents (idBase : Nat) (b nb : BankNo) (bsd bsu bss : ExpMask) : List (Bool × Nat) :=
  (if bsu.getLsbD b.toNat then [(false, idBase + b.toNat)] else []) ++
    (if bsd = 0#4 then []
     else (if nb ≠ b ∧ bss.getLsbD b.toNat = true then [(false, idBase + b.toNat)] else []) ++
       [(true, idBase + nb.toNat)])

/-- `nb` is the bank in force after the bank-select keydowns of a poll: the active bank when there is none,
else the lowest-indexed set bit (42_bank_mapper R179). -/
def BankInForce (bsd : ExpMask) (b nb : BankNo) : Prop :=
  (bsd = 0#4 ∧ nb = b) ∨ (bsd ≠ 0#4 ∧ LowestBit bsd nb.toNat)

/-- What a MAP leaves behind: the bank, the mode, the events, the sticky flag, and every other register as it
was (42_bank_mapper R170). The model's own counter is no register (log entry 16). -/
def MapLeaves (s t : State) (nb : BankNo) (mode : BitVec 2) (ev : List (Bool × Nat)) : Prop :=
  t.bank = nb ∧ t.lastmode = mode ∧ BufferHolds t ev ∧
    t.noteOor = (s.noteOor || ev.any fun e => decide (127 < e.2)) ∧ t.illegalFlag = s.illegalFlag ∧
    t.icause = s.icause ∧
    t = { s with bank := t.bank, lastmode := t.lastmode, evt := t.evt, evtCnt := t.evtCnt,
                 status := t.status, freeDraws := t.freeDraws }

end Sys2Proof.Machine
end

