-- ==== Sys2Proof/Certificates/Slice0/Obligations.lean ====
section
/-! DEFINITION. The statements for the provers. Each says which rule of spec/ it formalises, or that it rests
on the model's own choice and the log entry that makes it. -/

open Sys2Proof Sys2Proof.Machine

/-! ### Encoding -/

/-- 30_encoding R74: the twelve legal words and the port of each; no other word is legal on a port. -/
def Obligations.LegalWordsAreTheTwelve : Prop :=
  ∀ (p : Port) (w : Word) (i : Instr),
    decode p w = .legal i ↔
      (p, w, i) ∈ [(Port.consumer, 0x0000#16, Instr.nop), (.producer, 0x1000#16, .sampleG),
        (.producer, 0x1800#16, .sampleX), (.consumer, 0x2000#16, .readG), (.consumer, 0x2800#16, .readX),
        (.consumer, 0x3000#16, .calcG), (.consumer, 0x3800#16, .calcX), (.consumer, 0x4000#16, .gesture),
        (.consumer, 0x5000#16, .mapOff), (.consumer, 0x5200#16, .mapInt), (.consumer, 0x5400#16, .mapExt),
        (.consumer, 0x6000#16, .clrstat)]

/-- Decode and encode agree over every word of both ports: a port decodes a word to a command exactly when
the command is well formed on that port and the word is its encoding. -/
def Obligations.DecodeEncodeAgree : Prop :=
  ∀ (p : Port) (w : Word) (i : Instr),
    decode p w = .legal i ↔ (i.wellFormedOn p = true ∧ w = encode i)

/-- 60_exceptions R222: the cause of every word on each port, in the rule's order, with the fields taken from
the word's number (OP its top four bits, CH bit 11, MODE bits 10:9, RSV the low nine); a word without a cause is
legal, one with a cause is not; and the codes of the causes. -/
def Obligations.IllegalCauseOfEveryWord : Prop :=
  causeCode .opcode = 1#3 ∧ causeCode .field = 2#3 ∧ causeCode .mode = 3#3 ∧ causeCode .port = 4#3 ∧
  (∀ (p : Port) (w : Word),
    (∀ c, decode p w = .illegal c ↔ illegalCause p w = some c) ∧
    ((∃ i, decode p w = .legal i) ↔ illegalCause p w = none)) ∧
  (∀ w : Word, illegalCause .producer w =
    if w.toNat = 0x1000 ∨ w.toNat = 0x1800 then none else some .port) ∧
  ∀ w : Word, illegalCause .consumer w =
    if w.toNat = 0x1000 ∨ w.toNat = 0x1800 then some .port
    else if 7 ≤ w.toNat / 4096 then some .opcode
    else if w.toNat / 4096 = 5 ∧ w.toNat / 512 % 4 = 3 then some .mode
    else if w.toNat % 512 ≠ 0 ∨
        (w.toNat / 4096 ∉ [1, 2, 3] ∧ w.toNat / 2048 % 2 ≠ 0) ∨
        (w.toNat / 4096 ≠ 5 ∧ w.toNat / 512 % 4 ≠ 0) then some .field
    else none

/-- A few words of 30_encoding R74, one for each family, decode to the commands they stand for. -/
def Obligations.SampleWordsDecode : Prop :=
  decode .producer 0b0001000000000000#16 = .legal .sampleG ∧
  decode .producer 0b0001100000000000#16 = .legal .sampleX ∧
  decode .consumer 0b0010100000000000#16 = .legal .readX ∧
  decode .consumer 0b0100000000000000#16 = .legal .gesture ∧
  decode .consumer 0b0101010000000000#16 = .legal .mapExt ∧
  decode .consumer 0b0110000000000000#16 = .legal .clrstat

/-- 30_encoding R75: a SAMPLE word on the consumer port, and any word but the two SAMPLE words on the producer
port, raises Illegal with cause PORT and does nothing else. -/
def Obligations.WrongPortRaisesPortCause : Prop :=
  ∀ (p : Port) (w : Word) (s : State),
    (p = .consumer ∧ (w = 0x1000#16 ∨ w = 0x1800#16)) ∨
      (p = .producer ∧ w ≠ 0x1000#16 ∧ w ≠ 0x1800#16) →
    ∃ t, runWord p w s = .next t ∧ t.illegalFlag = true ∧ t.noteOor = s.noteOor ∧
      (s.illegalFlag = false → t.icause = 4#3) ∧ (s.illegalFlag = true → t.icause = s.icause) ∧
      t = { s with status := t.status }

/-! ### The illegal command and the status register -/

/-- 60_exceptions R221: an illegal word sets `ILLEGAL`, records its cause if `ILLEGAL` was 0, changes nothing
else, and does not disturb the other port's command in the same cycle. -/
def Obligations.IllegalChangesStatusOnly : Prop :=
  (∀ (p : Port) (w : Word) (c : Cause) (s : State), decode p w = .illegal c →
    ∃ t, runWord p w s = .next t ∧ t.illegalFlag = true ∧
      t.icause = (if s.illegalFlag then s.icause
        else match c with | .opcode => 1#3 | .field => 2#3 | .mode => 3#3 | .port => 4#3) ∧
      t.noteOor = s.noteOor ∧ t = { s with status := t.status }) ∧
  (∀ (w : Word) (c : Cause) (s t : State), s.pins.ccmd = some w → decode .consumer w = .illegal c →
    runWord .consumer w s = .next t → runCommands s = runPort .producer s.pins.pcmd t) ∧
  (∀ (w : Word) (c : Cause) (s t : State), s.pins.pcmd = some w → decode .producer w = .illegal c →
    runPort .consumer s.pins.ccmd s = .next t → runCommands s = runWord .producer w t)

/-- 60_exceptions R223: the three fields of `STATUS` hold until CLRSTAT, no other command clears them or writes
`ICAUSE`, and their values change nothing else that a later command does. -/
def Obligations.StatusFieldsAreStickyAndInert : Prop :=
  (∀ (p : Port) (w : Word) (s t : State), runWord p w s = .next t → ¬(p = .consumer ∧ w = 0x6000#16) →
    (s.illegalFlag = true → t.illegalFlag = true ∧ t.icause = s.icause) ∧
      (s.noteOor = true → t.noteOor = true)) ∧
  (∀ (i : Instr) (s t : State), exec i s = .next t → i ≠ .clrstat →
    t.illegalFlag = s.illegalFlag ∧ t.icause = s.icause) ∧
  (∀ (i : Instr) (s t : State) (v : BitVec 8), exec i s = .next t →
    ∃ u, exec i (s.withStatus v) = .next u ∧ u.withStatus t.status = t)

/-- 60_exceptions R224: of two illegal words in one cycle the consumer's cause is recorded. -/
def Obligations.ConsumerCauseIsRecorded : Prop :=
  ∀ (s : State) (wc wp : Word) (cc cp : Cause), s.pins.rst = false → s.pins.ccmd = some wc →
    s.pins.pcmd = some wp → decode .consumer wc = .illegal cc → decode .producer wp = .illegal cp →
    s.illegalFlag = false →
    ∃ t, step s = .next t ∧ t.illegalFlag = true ∧ t.icause = causeCode cc

/-! ### Control -/

/-- 43_control R200: NOP changes no register and an idle port changes none either; NOP is illegal
with cause PORT on the producer port and FIELD with a nonzero CH, MODE or RSV. -/
def Obligations.NopChangesNothing : Prop :=
  (∀ s : State, exec .nop s = .next s) ∧ (∀ (p : Port) (s : State), runPort p none s = .next s) ∧
  decode .consumer 0x0000#16 = .legal .nop ∧
  decode .producer 0x0000#16 = .illegal .port ∧
  ∀ w : Word, w.toNat < 4096 → w ≠ 0#16 → decode .consumer w = .illegal .field

/-- 43_control R201: CLRSTAT clears `STATUS` and touches nothing else; an illegal word of its opcode clears
nothing; an illegal producer word in its cycle sets `ILLEGAL` again with cause PORT. -/
def Obligations.ClrstatClearsStatus : Prop :=
  (∀ s : State, exec .clrstat s = .next { s with status := 0x00#8 }) ∧
  decode .consumer 0x6000#16 = .legal .clrstat ∧ decode .producer 0x6000#16 = .illegal .port ∧
  (∀ w : Word, 0x6000 < w.toNat → w.toNat < 0x7000 → decode .consumer w = .illegal .field ∧
    ∀ s : State, ∃ t, runWord .consumer w s = .next t ∧ t.illegalFlag = true ∧ t.noteOor = s.noteOor ∧
      t.icause = if s.illegalFlag then s.icause else 2#3) ∧
  ∀ (s : State) (w : Word), s.pins.rst = false → s.pins.ccmd = some 0x6000#16 → s.pins.pcmd = some w →
    w ≠ 0x1000#16 → w ≠ 0x1800#16 → ∃ t, step s = .next t ∧ t.status = 0x11#8

/-! ### Debounce and edges -/

/-- 40_debounce R100: SAMPLE.c on a block whose rings and pointers are as 10_state R21 to R23 say: the slot the
pointer names takes the raw word, cut to the channel's width, the pointer moves round, and nothing else
changes; on the consumer port the word is illegal with cause PORT. -/
def Obligations.SampleWritesOneSlot : Prop :=
  (∀ s : State, depthLegal s.depth = true → s.ringG.length = s.depth → s.wpG.toNat < s.depth →
    ∃ t, exec .sampleG s = .next t ∧ t.ringG.length = s.depth ∧
      t.ringG[s.wpG.toNat]? = some s.pins.pd ∧ (∀ j, j ≠ s.wpG.toNat → t.ringG[j]? = s.ringG[j]?) ∧
      t.wpG.toNat = (s.wpG.toNat + 1) % s.depth ∧ t = { s with ringG := t.ringG, wpG := t.wpG }) ∧
  (∀ s : State, depthLegal s.depth = true → s.ringX.length = s.depth → s.wpX.toNat < s.depth →
    ∃ t, exec .sampleX s = .next t ∧ t.ringX.length = s.depth ∧
      t.ringX[s.wpX.toNat]? = some (BitVec.ofNat 4 (s.pins.pd.toNat % 16)) ∧
      (∀ j, j ≠ s.wpX.toNat → t.ringX[j]? = s.ringX[j]?) ∧
      t.wpX.toNat = (s.wpX.toNat + 1) % s.depth ∧ t = { s with ringX := t.ringX, wpX := t.wpX }) ∧
  decode .producer 0x1000#16 = .legal .sampleG ∧ decode .producer 0x1800#16 = .legal .sampleX ∧
  decode .consumer 0x1000#16 = .illegal .port ∧ decode .consumer 0x1800#16 = .illegal .port

/-- The model's choice (log entry 5): SAMPLE and READ stop with the fault `noSuchSlot` where the ring has not
the slot or not `DEPTH` slots, states that no run from reset reaches. -/
def Obligations.MissingSlotStops : Prop :=
  ∀ s : State,
    (s.ringG.length ≠ s.depth ∨ s.depth ≤ s.wpG.toNat → exec .sampleG s = .fault .noSuchSlot) ∧
    (s.ringX.length ≠ s.depth ∨ s.depth ≤ s.wpX.toNat → exec .sampleX s = .fault .noSuchSlot) ∧
    (s.ringG.length ≠ s.depth → exec .readG s = .fault .noSuchSlot) ∧
    (s.ringX.length ≠ s.depth → exec .readX s = .fault .noSuchSlot)

/-- 40_debounce R102: READ.c makes a bit of `STATE_c` 1 exactly when every slot of the ring has it, and changes
nothing else; on the producer port the word is illegal with cause PORT. -/
def Obligations.ReadIsTheAndOfAllSlots : Prop :=
  (∀ s : State, s.ringG.length = s.depth →
    ∃ t, exec .readG s = .next t ∧ t = { s with stateG := t.stateG } ∧
      ∀ i, i < 16 → (t.stateG.getLsbD i = true ↔ ∀ j, j < s.depth → ∃ v, s.ringG[j]? = some v ∧
        v.getLsbD i = true)) ∧
  (∀ s : State, s.ringX.length = s.depth →
    ∃ t, exec .readX s = .next t ∧ t = { s with stateX := t.stateX } ∧
      ∀ i, i < 4 → (t.stateX.getLsbD i = true ↔ ∀ j, j < s.depth → ∃ v, s.ringX[j]? = some v ∧
        v.getLsbD i = true)) ∧
  decode .consumer 0x2000#16 = .legal .readG ∧ decode .consumer 0x2800#16 = .legal .readX ∧
  decode .producer 0x2000#16 = .illegal .port ∧ decode .producer 0x2800#16 = .illegal .port

/-- 40_debounce R104: CALC.c's three registers from the old `PREV_c` and `STATE_c`, and nothing else; on the
producer port the word is illegal with cause PORT. -/
def Obligations.CalcDerivesEdges : Prop :=
  (∀ s : State, exec .calcG s =
    .next { s with kdG := (s.prevG ^^^ s.stateG) &&& s.stateG, kuG := (s.prevG ^^^ s.stateG) &&& s.prevG,
                   prevG := s.stateG }) ∧
  (∀ s : State, exec .calcX s =
    .next { s with kdX := (s.prevX ^^^ s.stateX) &&& s.stateX, kuX := (s.prevX ^^^ s.stateX) &&& s.prevX,
                   prevX := s.stateX }) ∧
  decode .consumer 0x3000#16 = .legal .calcG ∧ decode .consumer 0x3800#16 = .legal .calcX ∧
  decode .producer 0x3000#16 = .illegal .port ∧ decode .producer 0x3800#16 = .illegal .port

/-- 40_debounce R105: a second CALC.c with no READ.c between clears both edge registers and leaves `PREV_c`,
whatever other commands ran in between. -/
def Obligations.CalcIsIdempotent : Prop :=
  (∀ s t u : State, exec .calcG s = .next t → u.stateG = t.stateG → u.prevG = t.prevG →
    t.prevG = t.stateG ∧
      exec .calcG u = .next { u with kdG := 0#16, kuG := 0#16 }) ∧
  (∀ s t u : State, exec .calcX s = .next t → u.stateX = t.stateX → u.prevX = t.prevX →
    t.prevX = t.stateX ∧
      exec .calcX u = .next { u with kdX := 0#4, kuX := 0#4 }) ∧
  ∀ (i : Instr) (s t : State), exec i s = .next t →
    (i ≠ .readG → t.stateG = s.stateG) ∧ (i ≠ .calcG → t.prevG = s.prevG) ∧
    (i ≠ .readX → t.stateX = s.stateX) ∧ (i ≠ .calcX → t.prevX = s.prevX)

/-- 40_debounce R107: the laws of the edge sets after every CALC.c. -/
def Obligations.EdgeSetLaws : Prop :=
  (∀ s t : State, exec .calcG s = .next t →
    t.kdG &&& t.kuG = 0#16 ∧ t.kdG ||| t.kuG = s.prevG ^^^ s.stateG ∧ t.kdG &&& s.stateG = t.kdG ∧
      t.kuG &&& s.prevG = t.kuG ∧ t.kdG &&& s.prevG = 0#16 ∧ t.kuG &&& s.stateG = 0#16) ∧
  ∀ s t : State, exec .calcX s = .next t →
    t.kdX &&& t.kuX = 0#4 ∧ t.kdX ||| t.kuX = s.prevX ^^^ s.stateX ∧ t.kdX &&& s.stateX = t.kdX ∧
      t.kuX &&& s.prevX = t.kuX ∧ t.kdX &&& s.prevX = 0#4 ∧ t.kuX &&& s.stateX = 0#4

/-- 40_debounce R109: a command on one channel neither reads nor writes the other channel's registers: whatever
those hold, it does the same and leaves them. -/
def Obligations.ChannelsAreIndependent : Prop :=
  (∀ (i : Instr) (s t : State) (ring : List ExpMask) (wp : BitVec 4) (v p kd ku : ExpMask),
    i = .sampleG ∨ i = .readG ∨ i = .calcG → exec i s = .next t →
      exec i { s with ringX := ring, wpX := wp, stateX := v, prevX := p, kdX := kd, kuX := ku } =
        .next { t with ringX := ring, wpX := wp, stateX := v, prevX := p, kdX := kd, kuX := ku }) ∧
  ∀ (i : Instr) (s t : State) (ring : List GridMask) (wp : BitVec 4) (v p kd ku : GridMask),
    i = .sampleX ∨ i = .readX ∨ i = .calcX → exec i s = .next t →
      exec i { s with ringG := ring, wpG := wp, stateG := v, prevG := p, kdG := kd, kuG := ku } =
        .next { t with ringG := ring, wpG := wp, stateG := v, prevG := p, kdG := kd, kuG := ku }

/-- 40_debounce R101: after SAMPLE.c of any list of words since reset, at any legal depth, the ring holds, one
per slot and in some order, the `DEPTH` most recent words, or all of them and reset values. -/
def Obligations.RingHoldsTheLastWords : Prop :=
  (∀ (d : Nat) (raws : List Word), depthLegal d = true →
    ∃ t, sampleManyG raws (State.initial d) = .next t ∧ List.Perm t.ringG (lastWords d raws)) ∧
  ∀ (d : Nat) (raws : List Word), depthLegal d = true →
    ∃ t, sampleManyX raws (State.initial d) = .next t ∧
      List.Perm t.ringX (lastWords d (raws.map fun r => BitVec.ofNat 4 (r.toNat % 16)))

/-- 40_debounce R103 from reset: a key reads as pressed exactly when at least `DEPTH` samples have been taken
and each of the last `DEPTH` has its bit. -/
def Obligations.PressNeedsFullWindow : Prop :=
  (∀ (d : Nat) (raws : List Word) (i : Nat), depthLegal d = true → i < 16 →
    ∃ t, andThen (sampleManyG raws (State.initial d)) (exec .readG) = .next t ∧
      (t.stateG.getLsbD i = true ↔
        d ≤ raws.length ∧ ∀ r ∈ raws.drop (raws.length - d), r.getLsbD i = true)) ∧
  ∀ (d : Nat) (raws : List Word) (i : Nat), depthLegal d = true → i < 4 →
    ∃ t, andThen (sampleManyX raws (State.initial d)) (exec .readX) = .next t ∧
      (t.stateX.getLsbD i = true ↔
        d ≤ raws.length ∧ ∀ r ∈ raws.drop (raws.length - d), r.getLsbD i = true)

/-! ### Gesture engine -/

/-- 41_gesture R131 with 30_encoding R80: the 44 ROM words in their order, and the states' row counts; every
row reads back from its word. -/
def Obligations.GestureTableIsTheRom : Prop :=
  gestureTable.map romWord =
    [0x00C010#22, 0x009050#22, 0x008090#22, 0x004120#22, 0x01D020#22, 0x02E030#22, 0x03F041#22, 0x04F402#22,
     0x05A060#22, 0x065070#22, 0x076085#22, 0x086406#22, 0x0984A0#22, 0x0A90B0#22, 0x0B94C0#22, 0x0BA060#22,
     0x0CA0D0#22, 0x0DA4E0#22, 0x0EA0F0#22, 0x0FA500#22, 0x10B117#22, 0x11B408#22, 0x124530#22, 0x134140#22,
     0x144550#22, 0x15C160#22, 0x16C570#22, 0x17C180#22, 0x18C590#22, 0x1981A0#22, 0x1A85B0#22, 0x1AA060#22,
     0x1B91C0#22, 0x1C95D0#22, 0x1D81E0#22, 0x1E85F0#22, 0x1F9200#22, 0x1FA0D0#22, 0x209610#22, 0x21B220#22,
     0x2190B0#22, 0x22B630#22, 0x23A249#22, 0x24A40A#22] ∧
  (∀ r ∈ gestureTable, rowOfRomWord (romWord r) = some r ∧
    (romWord r).toNat = 65536 * r.state.toNat + 4096 * r.key.toNat +
      1024 * (match r.kind with | .down => 0 | .up => 1 | .state => 2) + 16 * r.next.toNat +
      r.action.toNat) ∧
  (gestureTable.map (·.state.toNat)).Pairwise (· ≤ ·) ∧
  ∀ n, n < 37 → (gestureTable.filter (·.state.toNat == n)).length =
    if n = 0 then 4 else if n = 11 ∨ n = 26 ∨ n = 31 ∨ n = 33 then 2 else 1

/-- 41_gesture R133: every `next` is a state id, every id 0..36 has a row, a command writes to `GSTATE` only 0, a
table `next` or nothing, and so none takes it out of 0..36. -/
def Obligations.GStateStaysAStateId : Prop :=
  (∀ r ∈ gestureTable, r.next.toNat ≤ 36) ∧ (∀ n, n ≤ 36 → ∃ r ∈ gestureTable, r.state.toNat = n) ∧
  (∀ (i : Instr) (s t : State), exec i s = .next t →
    t.gstate = s.gstate ∨ t.gstate = 0#6 ∨ ∃ r ∈ gestureTable, t.gstate = r.next) ∧
  ∀ (i : Instr) (s t : State), s.gstate.toNat ≤ 36 → exec i s = .next t → t.gstate.toNat ≤ 36

/-- 41_gesture R148 with R130: GESTURE always completes, whatever the operands and the registers, and writes the
four gesture registers and nothing else. -/
def Obligations.GestureAlwaysCompletes : Prop :=
  ∀ s : State, ∃ t, exec .gesture s = .next t ∧
    t = { s with gstate := t.gstate, gact := t.gact, relkey := t.relkey, gout := t.gout }

/-- 41_gesture R134: a poll with no edge writes `GOUT` and nothing else, armed or not, chord or not. -/
def Obligations.NoEdgeOnlyClearsGout : Prop :=
  ∀ s : State, s.opKd = 0#16 → s.opKu = 0#16 → exec .gesture s = .next { s with gout := 0#4 }

/-- 41_gesture R135, R136, R137: the chord check, with the release key the lowest set bit of the keydown mask,
or 0 for an empty one, and `GSTATE` unchanged. -/
def Obligations.ChordArmsB : Prop :=
  ∀ s : State, HasEdge s → s.opSt = 0x0F00#16 → s.gact ≠ 3#4 →
    ∃ t, exec .gesture s = .next t ∧ ArmingKey s.opKd t.relkey ∧
      t = { s with gact := 3#4, gout := 3#4, relkey := t.relkey }

/-- 41_gesture R138, R139: the armed-release check, for each of the five DOWN actions. -/
def Obligations.ArmedReleaseCheck : Prop :=
  ∀ s : State, HasEdge s → ¬(s.opSt = 0x0F00#16 ∧ s.gact ≠ 3#4) → s.gact ∈ [1#4, 3#4, 5#4, 7#4, 9#4] →
    exec .gesture s = .next
      (if s.opSt &&& s.relkey = 0#16 then
        { s with gstate := 0#6, gact := s.gact + 1#4, gout := s.gact + 1#4 }
       else { s with gout := 0#4 })

/-- 41_gesture R140 and R142: the table walk of an engine that is not armed takes the first row of the current
state whose key is set in its mask, and goes idle when there is none; the release key is taken when the action
is not NONE. -/
def Obligations.WalkTakesFirstMatch : Prop :=
  ∀ s : State, HasEdge s → s.opSt ≠ 0x0F00#16 → s.gact ∉ [1#4, 3#4, 5#4, 7#4, 9#4] →
    (∀ (n : Nat) (r : GestureRow), gestureTable[n]? = some r → r.state = s.gstate →
      (match r.kind with | .down => s.opKd | .up => s.opKu | .state => s.opSt).getLsbD r.key.toNat = true →
      (∀ (m : Nat) (q : GestureRow), m < n → gestureTable[m]? = some q → q.state = s.gstate →
        (match q.kind with | .down => s.opKd | .up => s.opKu | .state => s.opSt).getLsbD q.key.toNat = false) →
      ∃ t, exec .gesture s = .next t ∧
        (r.action = 0#4 → t.relkey = s.relkey) ∧ (r.action ≠ 0#4 → ArmingKey s.opKd t.relkey) ∧
        t = { s with gstate := r.next, gact := r.action, gout := r.action, relkey := t.relkey }) ∧
    ((∀ r ∈ gestureTable, r.state = s.gstate →
        (match r.kind with | .down => s.opKd | .up => s.opKu | .state => s.opSt).getLsbD r.key.toNat = false) →
      exec .gesture s = .next { s with gstate := 0#6, gact := 0#4, gout := 0#4 })

/-- 41_gesture R141: a chord that a keyup completes arms with an empty release key, and the next poll with an
edge releases it at once. -/
def Obligations.EmptyReleaseKeyReleasesAtOnce : Prop :=
  lowestSetBit 0#16 = 0#16 ∧
  (∀ s : State, s.opKd = 0#16 → s.opKu ≠ 0#16 → s.opSt = 0x0F00#16 → s.gact ≠ 3#4 →
    exec .gesture s = .next { s with gact := 3#4, gout := 3#4, relkey := 0#16 }) ∧
  ∀ s : State, HasEdge s → s.gact = 3#4 → s.relkey = 0#16 →
    exec .gesture s = .next { s with gstate := 0#6, gact := 4#4, gout := 4#4 }

/-- 41_gesture R143: rows 7, 11, 21 and 43 are the rows with an UP action; in every run from reset, at every depth
and whatever the host drives, the states 4, 8, 17 and 36 imply an armed engine, and no table walk of an engine that
is not armed takes one of those rows. -/
def Obligations.ReleaseRowsNeverFire : Prop :=
  ((List.range 44).filter fun n =>
    (gestureTable.map fun r => decide (r.action ∈ [2#4, 4#4, 6#4, 8#4, 10#4])).getD n false) = [7, 11, 21, 43] ∧
  ∀ (d k : Nat) (p : Pins) (ps : List Pins) (t : State),
    Host.Core.run Sys2Proof.core k (((State.initial d).withPins p).withUpcoming ps) = .next t →
    (t.gstate ∈ [4#6, 8#6, 17#6, 36#6] → t.gact ∈ [1#4, 3#4, 5#4, 7#4, 9#4]) ∧
    ∀ (kd ku st : GridMask) (r : GestureRow), t.gact ∉ [1#4, 3#4, 5#4, 7#4, 9#4] →
      tableWalk t.gstate kd ku st = some r → r.action ∉ [2#4, 4#4, 6#4, 8#4, 10#4]

/-- 41_gesture R144: the edge sequences of the five combos and of the four merge rows, from any idle state that
is not armed, with any live state that is not the chord. -/
def Obligations.CombosAreRecognised : Prop :=
  Recognises [(12, true), (13, true), (14, true), (15, true)] 1#4 15 ∧
  (∀ s : State, HasEdge s → s.opSt = 0x0F00#16 → s.gact ≠ 3#4 →
    ∃ t, exec .gesture s = .next t ∧ t.gact = 3#4 ∧ t.gout = 3#4 ∧
      ∀ ku live : GridMask, ku ≠ 0#16 → live &&& t.relkey = 0#16 →
        ∃ u, exec .gesture (t.driveGrid 0#16 ku live) = .next u ∧ u.gout = 4#4) ∧
  Recognises [(9, true), (10, true), (5, true), (6, true)] 5#4 6 ∧
  Recognises [(8, true), (8, false), (9, true), (9, false), (10, true), (10, false), (10, true), (10, false),
    (11, true)] 7#4 11 ∧
  Recognises [(4, true), (4, false), (4, true), (4, false), (12, true), (12, false), (12, true), (12, false),
    (8, true), (8, false), (9, true), (9, false), (8, true), (8, false), (9, true), (9, false), (11, true),
    (11, false), (10, true)] 9#4 10 ∧
  LeadsTo [(8, true), (8, false), (9, true), (10, true)] 6#6 ∧
  LeadsTo [(4, true), (4, false), (4, true), (4, false), (12, true), (12, false), (12, true), (12, false),
    (8, true), (10, true)] 6#6 ∧
  LeadsTo [(4, true), (4, false), (4, true), (4, false), (12, true), (12, false), (12, true), (12, false),
    (8, true), (8, false), (9, true), (9, false), (8, true), (8, false), (10, true)] 13#6 ∧
  LeadsTo [(4, true), (4, false), (4, true), (4, false), (12, true), (12, false), (12, true), (12, false),
    (8, true), (8, false), (9, true), (9, false), (8, true), (8, false), (9, true), (9, false),
    (9, true)] 11#6

/-- 41_gesture R145: the chord replaces any other armed action and keeps `GSTATE`; while B_DOWN is armed a poll
keeps it and emits nothing, or emits B_UP. -/
def Obligations.ChordPreemptsArmedAction : Prop :=
  (∀ s : State, HasEdge s → s.gact ∈ [1#4, 5#4, 7#4, 9#4] → s.opSt = 0x0F00#16 →
    exec .gesture s = .next { s with gact := 3#4, gout := 3#4, relkey := lowestSetBit s.opKd }) ∧
  ∀ s t : State, s.gact = 3#4 → exec .gesture s = .next t →
    (t.gact = 3#4 ∧ t.gout = 0#4) ∨ (t.gact = 4#4 ∧ t.gout = 4#4)

/-- 41_gesture R146: the chord presented again while B_DOWN is armed and its release key held does not emit
B_DOWN again. -/
def Obligations.ChordDoesNotRepeat : Prop :=
  ∀ s : State, s.gact = 3#4 → s.opSt = 0x0F00#16 → s.opSt &&& s.relkey ≠ 0#16 →
    exec .gesture s = .next { s with gout := 0#4 }

/-- 41_gesture R147: an edge that matches no row of the current state is not tried again from idle. -/
def Obligations.AbortingEdgeIsConsumed : Prop :=
  ∀ s : State, s.gstate = 9#6 → s.gact = 0#4 → s.opKd = 0x0200#16 → s.opKu = 0#16 →
    s.opSt ≠ 0x0F00#16 → exec .gesture s = .next { s with gstate := 0#6, gout := 0#4 }

/-! ### Bank mapper -/

/-- 42_bank_mapper R171 and R172: the NoteTable, and the offset of the key at each row and column. -/
def Obligations.NoteTableAndLayout : Prop :=
  noteTable = [12, 13, 14, 15, 8, 9, 10, 11, 4, 5, 6, 7, 0, 1, 2, 3] ∧
  ∀ row col, row < 4 → col < 4 → noteOffset (4 * row + col) = 4 * (3 - row) + col

/-- 42_bank_mapper R174: MAP.OFF, for every operand: bank 0, all sixteen keys, no bank-select event. -/
def Obligations.MapOffEvents : Prop :=
  ∀ s : State, ∃ t, exec .mapOff s = .next t ∧
    MapLeaves s t 0#2 0#2
      (keyEventsFrom 0 false s.pins.cfg.baseNote.toNat s.pins.d1 ++
        keyEventsFrom 0 true s.pins.cfg.baseNote.toNat s.pins.d0)

/-- 42_bank_mapper R177 with R173 and R178 to R182: MAP.INT, for every operand: bank keys 0..3, note keys
4..15, windows of 12. -/
def Obligations.MapIntEvents : Prop :=
  ∀ (s : State) (bsd bsu bss : ExpMask) (b nb : BankNo),
    bsd = BitVec.ofNat 4 (s.pins.d0.toNat % 16) → bsu = BitVec.ofNat 4 (s.pins.d1.toNat % 16) →
    bss = BitVec.ofNat 4 (s.pins.d2.toNat % 16) → b = (if s.lastmode = 1#2 then s.bank else 0#2) →
    BankInForce bsd b nb →
    ∃ t, exec .mapInt s = .next t ∧
      MapLeaves s t nb 1#2
        (bankSelectEvents s.pins.cfg.bankNoteBase.toNat b nb bsd bsu bss ++
          keyEventsFrom 4 false (s.pins.cfg.baseNote.toNat + 12 * nb.toNat) s.pins.d1 ++
          keyEventsFrom 4 true (s.pins.cfg.baseNote.toNat + 12 * nb.toNat) s.pins.d0)

/-- 42_bank_mapper R175 with R173 and R178 to R182: MAP.EXT, for every operand: expansion pins select the bank
while the expansion port is enabled, all sixteen keys are notes, windows of 16. -/
def Obligations.MapExtEvents : Prop :=
  ∀ (s : State) (bsd bsu bss : ExpMask) (b nb : BankNo),
    bsd = (if s.pins.cfg.expEn then BitVec.ofNat 4 (s.pins.d3.toNat % 16) else 0#4) →
    bsu = (if s.pins.cfg.expEn then BitVec.ofNat 4 (s.pins.d4.toNat % 16) else 0#4) →
    bss = (if s.pins.cfg.expEn then BitVec.ofNat 4 (s.pins.d5.toNat % 16) else 0#4) →
    b = (if s.lastmode = 2#2 then s.bank else 0#2) → BankInForce bsd b nb →
    ∃ t, exec .mapExt s = .next t ∧
      MapLeaves s t nb 2#2
        (bankSelectEvents s.pins.cfg.bankNoteBase.toNat b nb bsd bsu bss ++
          keyEventsFrom 0 false (s.pins.cfg.baseNote.toNat + 16 * nb.toNat) s.pins.d1 ++
          keyEventsFrom 0 true (s.pins.cfg.baseNote.toNat + 16 * nb.toNat) s.pins.d0)

/-- 42_bank_mapper R173: a MAP in another mode than the last does what it does where that mode is no entry and the
bank is 0, writes `LASTMODE`, and emits nothing of its own: with no edge on any operand the event list is empty. -/
def Obligations.ModeEntryStartsAtBankZero : Prop :=
  ∀ (s t : State) (i : Instr) (m : BitVec 2),
    (i, m) ∈ [(Instr.mapOff, 0#2), (.mapInt, 1#2), (.mapExt, 2#2)] → s.lastmode ≠ m →
    exec i s = .next t →
    exec i { s with bank := 0#2, lastmode := m } = .next t ∧ t.lastmode = m ∧
      (s.pins.d0 = 0#16 → s.pins.d1 = 0#16 → s.pins.d3 = 0#16 → s.pins.d4 = 0#16 →
        t.evtCnt = 0#5 ∧ t.bank = 0#2)

/-- 42_bank_mapper R179: a bank-select keydown in Internal mode selects its lowest set bit and emits a note-on
for it, also when it is the active bank already; the forced note-off comes just before it. -/
def Obligations.BankKeydownSelectsLowest : Prop :=
  ∀ (s : State) (nb : BankNo), s.lastmode = 1#2 → LowestBit s.pins.d0 nb.toNat →
    s.pins.d1 = 0#16 →
    ∃ t, exec .mapInt s = .next t ∧ t.bank = nb ∧
      (if nb ≠ s.bank ∧ s.pins.d2.getLsbD s.bank.toNat = true then
        t.evt[0]? = some (BitVec.ofNat 9 (s.pins.cfg.bankNoteBase.toNat + s.bank.toNat)) ∧
        t.evt[1]? = some (BitVec.ofNat 9 (256 + s.pins.cfg.bankNoteBase.toNat + nb.toNat))
       else t.evt[0]? = some (BitVec.ofNat 9 (256 + s.pins.cfg.bankNoteBase.toNat + nb.toNat)))

/-- 42_bank_mapper R184: a MAP writes the whole event buffer, and no other command touches it. -/
def Obligations.OnlyMapWritesTheBuffer : Prop :=
  (∀ (s t : State) (i : Instr) (m : BankMode),
    (i, m) ∈ [(Instr.mapOff, BankMode.off), (.mapInt, .internal), (.mapExt, .external)] →
    exec i s = .next t →
    BufferHolds t ((s.mapEvents m).map fun e => (e.on, e.note))) ∧
  ∀ (i : Instr) (s t : State), i ∉ [Instr.mapOff, .mapInt, .mapExt] → exec i s = .next t →
    t.evt = s.evt ∧ t.evtCnt = s.evtCnt

/-- 42_bank_mapper R186, conditional on consistent operands as 70_reset R260 asks (a key not both down and up):
at most 16, 15 and 19 events in the three modes, and 18 in External mode when no expansion pin is both released
and held. -/
def Obligations.EventCountBound : Prop :=
  ∀ s t : State, s.pins.d0 &&& s.pins.d1 = 0#16 →
    (exec .mapOff s = .next t → t.evtCnt.toNat ≤ 16) ∧
    (exec .mapInt s = .next t → t.evtCnt.toNat ≤ 15) ∧
    (exec .mapExt s = .next t → t.evtCnt.toNat ≤ 19) ∧
    (exec .mapExt s = .next t → s.pins.d4 &&& s.pins.d5 = 0#16 → t.evtCnt.toNat ≤ 18)

/-- 42_bank_mapper R187: every note fits the 8-bit field and none is truncated. -/
def Obligations.NotesFitEightBits : Prop :=
  ∀ (s : State) (m : BankMode), ∀ e ∈ s.mapEvents m,
    e.note ≤ 190 ∧ ((eventEntry e).extractLsb' 0 8).toNat = e.note ∧ (eventEntry e).getLsbD 8 = e.on

/-- 42_bank_mapper R188: `NOTE_OOR` after a MAP is set exactly when it was set or an event is above 127, and the
event is written all the same with its full value. -/
def Obligations.NoteOorIsSticky : Prop :=
  ∀ (s t : State) (i : Instr) (m : BankMode),
    (i, m) ∈ [(Instr.mapOff, BankMode.off), (.mapInt, .internal), (.mapExt, .external)] →
    exec i s = .next t →
    (t.noteOor = true ↔ s.noteOor = true ∨ ∃ e ∈ s.mapEvents m, 127 < e.note) ∧
    ∀ (k : Nat) (e : NoteEvent), k < 19 → (s.mapEvents m)[k]? = some e →
      t.evt[k]? = some (BitVec.ofNat 9 ((if e.on then 256 else 0) + e.note))

/-- 30_encoding R76: each command reads only the bus bits of its row: with any other buses that agree on those
bits it does the same. -/
def Obligations.UnusedBusBitsAreIgnored : Prop :=
  ∀ (i : Instr) (s t : State) (q : Pins), exec i s = .next t →
    (i = .sampleG → q.pd = s.pins.pd) →
    (i = .sampleX → q.pd.toNat % 16 = s.pins.pd.toNat % 16) →
    (i ∈ [Instr.gesture, .mapOff, .mapInt, .mapExt] →
      q.d0 = s.pins.d0 ∧ q.d1 = s.pins.d1 ∧ q.d2 = s.pins.d2) →
    (i = .mapExt → q.d3.toNat % 16 = s.pins.d3.toNat % 16 ∧ q.d4.toNat % 16 = s.pins.d4.toNat % 16 ∧
      q.d5.toNat % 16 = s.pins.d5.toNat % 16) →
    (i ∈ [Instr.mapOff, .mapInt, .mapExt] → q.cfg = s.pins.cfg) →
    exec i (s.withPins q) = .next (t.withPins q)

/-- 42_bank_mapper R190: MAP neither reads nor writes a gesture register, and GESTURE neither reads nor writes a
bank register: whatever those hold, each does the same and leaves them. -/
def Obligations.MapperAndGestureAreIndependent : Prop :=
  (∀ (i : Instr) (s t : State) (gs : GStateId) (act : ActionCode) (key : GridMask) (out : ActionCode),
    i ∈ [Instr.mapOff, .mapInt, .mapExt] → exec i s = .next t →
    exec i { s with gstate := gs, gact := act, relkey := key, gout := out } =
      .next { t with gstate := gs, gact := act, relkey := key, gout := out }) ∧
  ∀ (s t : State) (b : BankNo) (mode : BitVec 2) (ev : List EvtEntry) (n : BitVec 5),
    exec .gesture s = .next t →
    exec .gesture { s with bank := b, lastmode := mode, evt := ev, evtCnt := n } =
      .next { t with bank := b, lastmode := mode, evt := ev, evtCnt := n }

/-- 20_memory R57: GESTURE and MAP take their operands from the buses and never from the debouncer's registers:
whatever those hold, each does the same and leaves them. -/
def Obligations.NoWireFromDebouncer : Prop :=
  ∀ (i : Instr) (s t : State) (rg : List GridMask) (rx : List ExpMask) (wg wx : BitVec 4)
    (vg pg dg ug : GridMask) (vx px dx ux : ExpMask),
    i ∈ [Instr.gesture, .mapOff, .mapInt, .mapExt] → exec i s = .next t →
    exec i { s with ringG := rg, ringX := rx, wpG := wg, wpX := wx, stateG := vg, prevG := pg, kdG := dg,
                    kuG := ug, stateX := vx, prevX := px, kdX := dx, kuX := ux } =
      .next { t with ringG := rg, ringX := rx, wpG := wg, wpX := wx, stateG := vg, prevG := pg, kdG := dg,
                     kuG := ug, stateX := vx, prevX := px, kdX := dx, kuX := ux }

/-- The model's choice (log entry 16): a MAP.OFF or MAP.EXT of 32 events or more, which only operands with a key
both down and up can give, goes on with `EVT_CNT` at the free value of what it computes with, and writes everything
else; a MAP of fewer events, and so every MAP.INT, counts them and draws none. No command reads the model's counter
of draws: the next state is a function of 00_scope R12's four inputs. -/
def Obligations.UncountableMapDrawsFreeValue : Prop :=
  (∀ (s : State) (i : Instr) (m : BankMode), (i, m) ∈ [(Instr.mapOff, BankMode.off), (.mapExt, .external)] →
    32 ≤ (s.mapEvents m).length →
    ∃ t, exec i s = .next t ∧ t.evtCnt = s.freeEventCount m ∧ t.freeDraws = s.freeDraws + 1 ∧
      t.bank = s.mapBank m ∧ t.lastmode = modeCode m ∧
      BufferHolds t ((s.mapEvents m).map fun e => (e.on, e.note))) ∧
  (∀ (s : State) (i : Instr) (m : BankMode),
    (i, m) ∈ [(Instr.mapOff, BankMode.off), (.mapInt, .internal), (.mapExt, .external)] →
    (s.mapEvents m).length < 32 →
    ∃ t, exec i s = .next t ∧ t.evtCnt.toNat = (s.mapEvents m).length ∧ t.freeDraws = s.freeDraws) ∧
  (∀ s : State, (s.mapEvents .internal).length ≤ 27) ∧
  ∀ (i : Instr) (s t : State) (n : Nat), exec i s = .next t →
    ∃ u, exec i (s.withFreeDraws n) = .next u ∧ u.withFreeDraws t.freeDraws = t

/-! ### Reset, the cycle and the step -/

/-- 70_reset R250: the reset action from every state: the reset value of every register, the depth and the inputs
untouched. -/
def Obligations.ResetValues : Prop :=
  ∀ s : State, let r := resetAction s
    r.ringG.length = s.depth ∧ (∀ v ∈ r.ringG, v = 0x0000#16) ∧
    r.ringX.length = s.depth ∧ (∀ v ∈ r.ringX, v = 0x0#4) ∧
    r.wpG = 0#4 ∧ r.wpX = 0#4 ∧ r.stateG = 0#16 ∧ r.stateX = 0#4 ∧ r.prevG = 0#16 ∧ r.prevX = 0#4 ∧
    r.kdG = 0#16 ∧ r.kuG = 0#16 ∧ r.kdX = 0#4 ∧ r.kuX = 0#4 ∧ r.gstate = 0#6 ∧ r.gact = 0#4 ∧
    r.relkey = 0x0000#16 ∧ r.gout = 0#4 ∧ r.bank = 0#2 ∧ r.lastmode = 0#2 ∧ r.evt.length = 19 ∧
    (∀ e ∈ r.evt, e = 0x000#9) ∧ r.evtCnt = 0#5 ∧ r.status = 0x00#8 ∧ r.depth = s.depth ∧ r.pins = s.pins

/-- 70_reset R251: a cycle with `RST` high puts every register in its reset state, whatever state the block was
in and whatever the ports carry; `DEPTH` stays. -/
def Obligations.ResetCycleDiscardsCommands : Prop :=
  ∀ s : State, s.pins.rst = true →
    ∃ t, step s = .next t ∧
      t = { State.initial s.depth with pins := t.pins, upcoming := t.upcoming, freeDraws := t.freeDraws }

/-- 20_memory R56: without `RST` the consumer's command completes first, the producer's runs against the state it
left, and then the next cycle's pins are there; a legal word runs the command it decodes to, an illegal one raises
Illegal, and an idle port does nothing (30_encoding R70). -/
def Obligations.StepRunsConsumerThenProducer : Prop :=
  (∀ (p : Port) (w : Word) (s : State), (∀ i, decode p w = .legal i → runPort p (some w) s = exec i s) ∧
    (∀ c, decode p w = .illegal c → runPort p (some w) s = .next (raiseIllegal c s))) ∧
  ∀ s : State, s.pins.rst = false →
    (step s = andThen (runPort .consumer s.pins.ccmd s) fun t =>
      andThen (runPort .producer s.pins.pcmd t) fun u => .next (advanceCycle u)) ∧
    (∀ (wc wp : Word) (i j : Instr), s.pins.ccmd = some wc → s.pins.pcmd = some wp →
      decode .consumer wc = .legal i → decode .producer wp = .legal j →
      step s = andThen (exec i s) fun t => andThen (exec j t) fun u => .next (advanceCycle u)) ∧
    (∀ (w : Word) (i : Instr), s.pins.ccmd = some w → s.pins.pcmd = none →
      decode .consumer w = .legal i → step s = andThen (exec i s) fun t => .next (advanceCycle t)) ∧
    (∀ (w : Word) (i : Instr), s.pins.ccmd = none → s.pins.pcmd = some w →
      decode .producer w = .legal i → step s = andThen (exec i s) fun t => .next (advanceCycle t)) ∧
    (s.pins.ccmd = none → s.pins.pcmd = none → step s = .next (advanceCycle s))

/-- A command's word, presented as the opcode table numbers it, is the command that the next step runs. -/
def Obligations.PresentedWordRuns : Prop :=
  ∀ (i : Instr) (s : State),
    step (s.withFetchWord 16 (encode i).toNat) =
      andThen (exec i (s.withFetchWord 16 (encode i).toNat)) fun t => .next (advanceCycle t)

/-- The model's choice (log entries 2 and 4): every step takes up the next pins the host drives, or idles the
ports when it drives no more, and touches no register in doing so. -/
def Obligations.StepTakesUpNextPins : Prop :=
  (∀ s t : State, step s = .next t →
    t.upcoming = s.upcoming.tail ∧
    t.pins = s.upcoming.headD { s.pins with rst := false, pcmd := none, ccmd := none }) ∧
  ∀ s : State, advanceCycle s =
    { s with pins := (advanceCycle s).pins, upcoming := (advanceCycle s).upcoming }

/-- 70_reset R261: READ.c and SAMPLE.c in one cycle: the READ sees the ring without that cycle's sample, and the
sample lands after it. -/
def Obligations.ReadSeesRingBeforeSample : Prop :=
  (∀ s : State, s.pins.rst = false → s.pins.ccmd = some 0x2000#16 → s.pins.pcmd = some 0x1000#16 →
    s.ringG.length = s.depth → s.wpG.toNat < s.depth →
    ∃ t u, step s = .next t ∧ exec .readG s = .next u ∧ t.stateG = u.stateG ∧
      t.ringG[s.wpG.toNat]? = some s.pins.pd ∧ ∀ j, j ≠ s.wpG.toNat → t.ringG[j]? = s.ringG[j]?) ∧
  ∀ s : State, s.pins.rst = false → s.pins.ccmd = some 0x2800#16 → s.pins.pcmd = some 0x1800#16 →
    s.ringX.length = s.depth → s.wpX.toNat < s.depth →
    ∃ t u, step s = .next t ∧ exec .readX s = .next u ∧ t.stateX = u.stateX ∧
      t.ringX[s.wpX.toNat]? = some (BitVec.ofNat 4 (s.pins.pd.toNat % 16)) ∧
      ∀ j, j ≠ s.wpX.toNat → t.ringX[j]? = s.ringX[j]?

/-- 00_scope R8: no step changes `DEPTH`, and no command changes the inputs (10_state R27). -/
def Obligations.DepthAndInputsAreNeverWritten : Prop :=
  (∀ s t : State, step s = .next t → t.depth = s.depth) ∧
  ∀ (i : Instr) (s t : State), exec i s = .next t →
    t.depth = s.depth ∧ t.pins = s.pins ∧ t.upcoming = s.upcoming

/-- 10_state R40: the observation outputs show every register: two states of one depth with the same outputs have
the same registers. -/
def Obligations.OutputsShowEveryRegister : Prop :=
  ∀ s t : State, s.depth = t.depth → StatusInv s → StatusInv t → (∀ r, s.observe r = t.observe r) →
    s = { t with pins := s.pins, upcoming := s.upcoming, freeDraws := s.freeDraws }

/-! ### The invariant -/

/-- The reset state of every legal depth has the invariant and is what the reset action leaves; that the machine of
the host's interface has the default depth is the model's choice (log entry 1). -/
def Obligations.InvHoldsAtReset : Prop :=
  State.reset = State.initial 10 ∧ (∀ d : Nat, resetAction (State.initial d) = State.initial d) ∧
  ∀ d : Nat, depthLegal d = true → BlockInv (State.initial d)

/-- Every step from every state with the invariant keeps it. -/
def Obligations.StepKeepsInv : Prop :=
  ∀ s t : State, BlockInv s → step s = .next t → BlockInv t

/-- 00_scope R12: from every state with the invariant, whatever the pins carry, a step answers a next state. -/
def Obligations.EveryStepCompletes : Prop :=
  ∀ s : State, BlockInv s → ∃ t, step s = .next t

/-- Every run from a state with the invariant, of any length and whatever the host drives, is safe. -/
def Obligations.EveryRunIsSafe : Prop :=
  ∀ (k : Nat) (s : State), BlockInv s → SafeRun k s

/-! ### Listings -/

/-- 70_reset R255 with 30_encoding R81 and R82: a canonical poll with GESTURE hands the gesture engine the edge
triple that its READ.G and CALC.G derived from the ring. -/
def Obligations.PollFeedsGestureItsTriple : Prop :=
  ∀ s : State, s.ringG.length = s.depth →
    ∃ (t : State) (v : GridMask), runListing (canonicalPoll true none) s = .next t ∧
      windowAnd s.depth s.ringG = some v ∧ t.stateG = v ∧ t.kdG = (s.prevG ^^^ v) &&& v ∧
      t.kuG = (s.prevG ^^^ v) &&& s.prevG ∧ t.prevG = v ∧
      t.gestureRegs = gestureStep s.gestureRegs t.kdG t.kuG t.stateG

/-- 70_reset R255 with 30_encoding R81 and R82, in a state with no other cycle to come: a canonical poll, with
GESTURE or without, whose MAP.EXT will not use the expansion port leaves channel X alone and maps the grid triple
with no bank selected; one whose MAP.EXT will use it derives channel X's triple as well and, while the port is
enabled, maps both. In both the gesture registers move by that poll's triple if GESTURE is in the poll, and stay if
not. That the MAP samples the configuration inputs of the poll's first cycle is the model's choice (log entry 14: a
line that names no configuration keeps it; log entry 4: it is held when no pins are to come), and so is that the use
of the port is an argument of the poll (log entry 14). -/
def Obligations.PollReadsExpansionOnlyWhenUsed : Prop :=
  (∀ (s : State) (g : Bool) (b : BankNo), s.upcoming = [] → s.ringG.length = s.depth →
    b = (if s.lastmode = 2#2 then s.bank else 0#2) →
    ∃ t, runListing (canonicalPoll g (some (.external false))) s = .next t ∧
      t.ringX = s.ringX ∧ t.wpX = s.wpX ∧ t.stateX = s.stateX ∧ t.prevX = s.prevX ∧ t.kdX = s.kdX ∧
      t.kuX = s.kuX ∧ windowAnd s.depth s.ringG = some t.stateG ∧ t.kdG = (s.prevG ^^^ t.stateG) &&& t.stateG ∧
      t.kuG = (s.prevG ^^^ t.stateG) &&& s.prevG ∧ t.prevG = t.stateG ∧
      t.gestureRegs = (if g then gestureStep s.gestureRegs t.kdG t.kuG t.stateG else s.gestureRegs) ∧
      t.bank = b ∧ t.lastmode = 2#2 ∧
      BufferHolds t (keyEventsFrom 0 false (s.pins.cfg.baseNote.toNat + 16 * b.toNat) t.kuG ++
        keyEventsFrom 0 true (s.pins.cfg.baseNote.toNat + 16 * b.toNat) t.kdG)) ∧
  ∀ (s : State) (g : Bool) (b : BankNo), s.upcoming = [] → s.ringG.length = s.depth → s.ringX.length = s.depth →
    s.pins.cfg.expEn = true → b = (if s.lastmode = 2#2 then s.bank else 0#2) →
    ∃ t, runListing (canonicalPoll g (some (.external true))) s = .next t ∧
      windowAnd s.depth s.ringX = some t.stateX ∧ t.kdX = (s.prevX ^^^ t.stateX) &&& t.stateX ∧
      t.kuX = (s.prevX ^^^ t.stateX) &&& s.prevX ∧ t.prevX = t.stateX ∧
      windowAnd s.depth s.ringG = some t.stateG ∧ t.kdG = (s.prevG ^^^ t.stateG) &&& t.stateG ∧
      t.kuG = (s.prevG ^^^ t.stateG) &&& s.prevG ∧ t.prevG = t.stateG ∧
      t.gestureRegs = (if g then gestureStep s.gestureRegs t.kdG t.kuG t.stateG else s.gestureRegs) ∧
      BankInForce t.kdX b t.bank ∧ t.lastmode = 2#2 ∧
      BufferHolds t (bankSelectEvents s.pins.cfg.bankNoteBase.toNat b t.bank t.kdX t.kuX t.stateX ++
        keyEventsFrom 0 false (s.pins.cfg.baseNote.toNat + 16 * t.bank.toNat) t.kuG ++
        keyEventsFrom 0 true (s.pins.cfg.baseNote.toNat + 16 * t.bank.toNat) t.kdG)
end

