-- ==== Sys2Proof/Laws/BankMapper.lean ====
section
/-! SUPPORT. The events of the bank mapper and the entries of its buffer. -/

namespace Sys2Proof.Machine

/-- Every offset of the NoteTable is at most 15. -/
theorem noteOffset_le (i : Nat) : noteOffset i ≤ 15 := by
  unfold noteOffset
  by_cases h : i < 16
  · have : ∀ i, i < 16 → noteTable.getD i 0 ≤ 15 := by decide
    exact this i h
  · have : noteTable.length ≤ i := by
      have hl : noteTable.length = 16 := rfl
      omega
    simp [List.getD_eq_getElem?_getD, List.getElem?_eq_none this]

/-- A list of at most one element for each index is a filtered list. -/
theorem flatMap_ite_singleton {α β : Type} (l : List α) (p : α → Bool) (f : α → β) :
    (l.flatMap fun i => if p i = true then [f i] else []) = (l.filter p).map f := by
  induction l with
  | nil => rfl
  | cons a l ih => simp only [List.flatMap_cons, List.filter_cons, ih]; cases p a <;> simp

/-- The note keys' events are those of the note keys set in the mask, in ascending order. -/
theorem noteKeyEvents_eq (on : Bool) (base : Nat) (nk mask : GridMask) : noteKeyEvents on base nk mask =
    ((List.range 16).filter fun i => nk.getLsbD i && mask.getLsbD i).map fun i =>
      ⟨on, base + noteOffset i⟩ :=
  flatMap_ite_singleton _ _ _

/-- Entry `k` of the buffer is the entry of event `k`, or 0x000 where there is none. -/
theorem eventBuffer_get (ev : List NoteEvent) {k : Nat} (hk : k < 19) :
    (eventBuffer ev)[k]? = some (((ev[k]?).map eventEntry).getD 0#9) := by
  simp [eventBuffer, Config.evtMax, hk]

/-- The buffer always has 19 entries. -/
@[simp] theorem eventBuffer_length (ev : List NoteEvent) : (eventBuffer ev).length = 19 := by
  simp [eventBuffer, Config.evtMax]

/-- The entry of an event whose note fits 8 bits is the on bit and the note. -/
theorem eventEntry_eq (e : NoteEvent) (h : e.note < 256) :
    eventEntry e = BitVec.ofNat 9 ((if e.on then 256 else 0) + e.note) := by
  rcases e with ⟨on, n⟩
  have h : n < 256 := h
  apply BitVec.eq_of_toNat_eq
  simp only [eventEntry]
  rw [BitVec.toNat_append, BitVec.toNat_ofNat]
  cases on
  · simp [Nat.mod_eq_of_lt h, Nat.mod_eq_of_lt (show n < 512 by omega)]
  · simp [Nat.mod_eq_of_lt h, Nat.mod_eq_of_lt (show 256 + n < 512 by omega)]
    have := Nat.two_pow_add_eq_or_of_lt (show n < 2 ^ 8 by omega) 1
    simpa using this.symm

/-- The selectors of External mode while the expansion port is enabled. -/
theorem selectors_external_enabled {s : State} (h : s.cfgExpEn = true) : s.selectors .external =
    { bsd := s.opXkd, bsu := s.opXku, bss := s.opXst, nk := 0xFFFF#16, stride := strideExternal } := by
  simp [State.selectors, h]

/-- The selectors of External mode while the expansion port is not enabled. -/
theorem selectors_external_disabled {s : State} (h : s.cfgExpEn = false) : s.selectors .external =
    { bsd := 0#4, bsu := 0#4, bss := 0#4, nk := 0xFFFF#16, stride := strideExternal } := by
  simp [State.selectors, h]

end Sys2Proof.Machine
end

