-- ==== Sys2Proof/Laws/State.lean ====
section
/-! SUPPORT. One lemma for each field of State under each update of it, all true by unfolding. -/

namespace Sys2Proof.Machine.State

section
variable (s : State) (ring : List GridMask) (wp : BitVec 4)

@[simp] theorem withRingG_depth : (s.withRingG ring wp).depth = s.depth := rfl
@[simp] theorem withRingG_ringG : (s.withRingG ring wp).ringG = ring := rfl
@[simp] theorem withRingG_ringX : (s.withRingG ring wp).ringX = s.ringX := rfl
@[simp] theorem withRingG_wpG : (s.withRingG ring wp).wpG = wp := rfl
@[simp] theorem withRingG_wpX : (s.withRingG ring wp).wpX = s.wpX := rfl
@[simp] theorem withRingG_stateG : (s.withRingG ring wp).stateG = s.stateG := rfl
@[simp] theorem withRingG_stateX : (s.withRingG ring wp).stateX = s.stateX := rfl
@[simp] theorem withRingG_prevG : (s.withRingG ring wp).prevG = s.prevG := rfl
@[simp] theorem withRingG_prevX : (s.withRingG ring wp).prevX = s.prevX := rfl
@[simp] theorem withRingG_kdG : (s.withRingG ring wp).kdG = s.kdG := rfl
@[simp] theorem withRingG_kuG : (s.withRingG ring wp).kuG = s.kuG := rfl
@[simp] theorem withRingG_kdX : (s.withRingG ring wp).kdX = s.kdX := rfl
@[simp] theorem withRingG_kuX : (s.withRingG ring wp).kuX = s.kuX := rfl
@[simp] theorem withRingG_gstate : (s.withRingG ring wp).gstate = s.gstate := rfl
@[simp] theorem withRingG_gact : (s.withRingG ring wp).gact = s.gact := rfl
@[simp] theorem withRingG_relkey : (s.withRingG ring wp).relkey = s.relkey := rfl
@[simp] theorem withRingG_gout : (s.withRingG ring wp).gout = s.gout := rfl
@[simp] theorem withRingG_bank : (s.withRingG ring wp).bank = s.bank := rfl
@[simp] theorem withRingG_lastmode : (s.withRingG ring wp).lastmode = s.lastmode := rfl
@[simp] theorem withRingG_evt : (s.withRingG ring wp).evt = s.evt := rfl
@[simp] theorem withRingG_evtCnt : (s.withRingG ring wp).evtCnt = s.evtCnt := rfl
@[simp] theorem withRingG_status : (s.withRingG ring wp).status = s.status := rfl
@[simp] theorem withRingG_pins : (s.withRingG ring wp).pins = s.pins := rfl
@[simp] theorem withRingG_upcoming : (s.withRingG ring wp).upcoming = s.upcoming := rfl
@[simp] theorem withRingG_freeDraws : (s.withRingG ring wp).freeDraws = s.freeDraws := rfl

end

section
variable (s : State) (ring : List ExpMask) (wp : BitVec 4)

@[simp] theorem withRingX_depth : (s.withRingX ring wp).depth = s.depth := rfl
@[simp] theorem withRingX_ringG : (s.withRingX ring wp).ringG = s.ringG := rfl
@[simp] theorem withRingX_ringX : (s.withRingX ring wp).ringX = ring := rfl
@[simp] theorem withRingX_wpG : (s.withRingX ring wp).wpG = s.wpG := rfl
@[simp] theorem withRingX_wpX : (s.withRingX ring wp).wpX = wp := rfl
@[simp] theorem withRingX_stateG : (s.withRingX ring wp).stateG = s.stateG := rfl
@[simp] theorem withRingX_stateX : (s.withRingX ring wp).stateX = s.stateX := rfl
@[simp] theorem withRingX_prevG : (s.withRingX ring wp).prevG = s.prevG := rfl
@[simp] theorem withRingX_prevX : (s.withRingX ring wp).prevX = s.prevX := rfl
@[simp] theorem withRingX_kdG : (s.withRingX ring wp).kdG = s.kdG := rfl
@[simp] theorem withRingX_kuG : (s.withRingX ring wp).kuG = s.kuG := rfl
@[simp] theorem withRingX_kdX : (s.withRingX ring wp).kdX = s.kdX := rfl
@[simp] theorem withRingX_kuX : (s.withRingX ring wp).kuX = s.kuX := rfl
@[simp] theorem withRingX_gstate : (s.withRingX ring wp).gstate = s.gstate := rfl
@[simp] theorem withRingX_gact : (s.withRingX ring wp).gact = s.gact := rfl
@[simp] theorem withRingX_relkey : (s.withRingX ring wp).relkey = s.relkey := rfl
@[simp] theorem withRingX_gout : (s.withRingX ring wp).gout = s.gout := rfl
@[simp] theorem withRingX_bank : (s.withRingX ring wp).bank = s.bank := rfl
@[simp] theorem withRingX_lastmode : (s.withRingX ring wp).lastmode = s.lastmode := rfl
@[simp] theorem withRingX_evt : (s.withRingX ring wp).evt = s.evt := rfl
@[simp] theorem withRingX_evtCnt : (s.withRingX ring wp).evtCnt = s.evtCnt := rfl
@[simp] theorem withRingX_status : (s.withRingX ring wp).status = s.status := rfl
@[simp] theorem withRingX_pins : (s.withRingX ring wp).pins = s.pins := rfl
@[simp] theorem withRingX_upcoming : (s.withRingX ring wp).upcoming = s.upcoming := rfl
@[simp] theorem withRingX_freeDraws : (s.withRingX ring wp).freeDraws = s.freeDraws := rfl

end

section
variable (s : State) (v : GridMask)

@[simp] theorem withStateG_depth : (s.withStateG v).depth = s.depth := rfl
@[simp] theorem withStateG_ringG : (s.withStateG v).ringG = s.ringG := rfl
@[simp] theorem withStateG_ringX : (s.withStateG v).ringX = s.ringX := rfl
@[simp] theorem withStateG_wpG : (s.withStateG v).wpG = s.wpG := rfl
@[simp] theorem withStateG_wpX : (s.withStateG v).wpX = s.wpX := rfl
@[simp] theorem withStateG_stateG : (s.withStateG v).stateG = v := rfl
@[simp] theorem withStateG_stateX : (s.withStateG v).stateX = s.stateX := rfl
@[simp] theorem withStateG_prevG : (s.withStateG v).prevG = s.prevG := rfl
@[simp] theorem withStateG_prevX : (s.withStateG v).prevX = s.prevX := rfl
@[simp] theorem withStateG_kdG : (s.withStateG v).kdG = s.kdG := rfl
@[simp] theorem withStateG_kuG : (s.withStateG v).kuG = s.kuG := rfl
@[simp] theorem withStateG_kdX : (s.withStateG v).kdX = s.kdX := rfl
@[simp] theorem withStateG_kuX : (s.withStateG v).kuX = s.kuX := rfl
@[simp] theorem withStateG_gstate : (s.withStateG v).gstate = s.gstate := rfl
@[simp] theorem withStateG_gact : (s.withStateG v).gact = s.gact := rfl
@[simp] theorem withStateG_relkey : (s.withStateG v).relkey = s.relkey := rfl
@[simp] theorem withStateG_gout : (s.withStateG v).gout = s.gout := rfl
@[simp] theorem withStateG_bank : (s.withStateG v).bank = s.bank := rfl
@[simp] theorem withStateG_lastmode : (s.withStateG v).lastmode = s.lastmode := rfl
@[simp] theorem withStateG_evt : (s.withStateG v).evt = s.evt := rfl
@[simp] theorem withStateG_evtCnt : (s.withStateG v).evtCnt = s.evtCnt := rfl
@[simp] theorem withStateG_status : (s.withStateG v).status = s.status := rfl
@[simp] theorem withStateG_pins : (s.withStateG v).pins = s.pins := rfl
@[simp] theorem withStateG_upcoming : (s.withStateG v).upcoming = s.upcoming := rfl
@[simp] theorem withStateG_freeDraws : (s.withStateG v).freeDraws = s.freeDraws := rfl

end

section
variable (s : State) (v : ExpMask)

@[simp] theorem withStateX_depth : (s.withStateX v).depth = s.depth := rfl
@[simp] theorem withStateX_ringG : (s.withStateX v).ringG = s.ringG := rfl
@[simp] theorem withStateX_ringX : (s.withStateX v).ringX = s.ringX := rfl
@[simp] theorem withStateX_wpG : (s.withStateX v).wpG = s.wpG := rfl
@[simp] theorem withStateX_wpX : (s.withStateX v).wpX = s.wpX := rfl
@[simp] theorem withStateX_stateG : (s.withStateX v).stateG = s.stateG := rfl
@[simp] theorem withStateX_stateX : (s.withStateX v).stateX = v := rfl
@[simp] theorem withStateX_prevG : (s.withStateX v).prevG = s.prevG := rfl
@[simp] theorem withStateX_prevX : (s.withStateX v).prevX = s.prevX := rfl
@[simp] theorem withStateX_kdG : (s.withStateX v).kdG = s.kdG := rfl
@[simp] theorem withStateX_kuG : (s.withStateX v).kuG = s.kuG := rfl
@[simp] theorem withStateX_kdX : (s.withStateX v).kdX = s.kdX := rfl
@[simp] theorem withStateX_kuX : (s.withStateX v).kuX = s.kuX := rfl
@[simp] theorem withStateX_gstate : (s.withStateX v).gstate = s.gstate := rfl
@[simp] theorem withStateX_gact : (s.withStateX v).gact = s.gact := rfl
@[simp] theorem withStateX_relkey : (s.withStateX v).relkey = s.relkey := rfl
@[simp] theorem withStateX_gout : (s.withStateX v).gout = s.gout := rfl
@[simp] theorem withStateX_bank : (s.withStateX v).bank = s.bank := rfl
@[simp] theorem withStateX_lastmode : (s.withStateX v).lastmode = s.lastmode := rfl
@[simp] theorem withStateX_evt : (s.withStateX v).evt = s.evt := rfl
@[simp] theorem withStateX_evtCnt : (s.withStateX v).evtCnt = s.evtCnt := rfl
@[simp] theorem withStateX_status : (s.withStateX v).status = s.status := rfl
@[simp] theorem withStateX_pins : (s.withStateX v).pins = s.pins := rfl
@[simp] theorem withStateX_upcoming : (s.withStateX v).upcoming = s.upcoming := rfl
@[simp] theorem withStateX_freeDraws : (s.withStateX v).freeDraws = s.freeDraws := rfl

end

section
variable (s : State) (kd ku prev : GridMask)

@[simp] theorem withEdgesG_depth : (s.withEdgesG kd ku prev).depth = s.depth := rfl
@[simp] theorem withEdgesG_ringG : (s.withEdgesG kd ku prev).ringG = s.ringG := rfl
@[simp] theorem withEdgesG_ringX : (s.withEdgesG kd ku prev).ringX = s.ringX := rfl
@[simp] theorem withEdgesG_wpG : (s.withEdgesG kd ku prev).wpG = s.wpG := rfl
@[simp] theorem withEdgesG_wpX : (s.withEdgesG kd ku prev).wpX = s.wpX := rfl
@[simp] theorem withEdgesG_stateG : (s.withEdgesG kd ku prev).stateG = s.stateG := rfl
@[simp] theorem withEdgesG_stateX : (s.withEdgesG kd ku prev).stateX = s.stateX := rfl
@[simp] theorem withEdgesG_prevG : (s.withEdgesG kd ku prev).prevG = prev := rfl
@[simp] theorem withEdgesG_prevX : (s.withEdgesG kd ku prev).prevX = s.prevX := rfl
@[simp] theorem withEdgesG_kdG : (s.withEdgesG kd ku prev).kdG = kd := rfl
@[simp] theorem withEdgesG_kuG : (s.withEdgesG kd ku prev).kuG = ku := rfl
@[simp] theorem withEdgesG_kdX : (s.withEdgesG kd ku prev).kdX = s.kdX := rfl
@[simp] theorem withEdgesG_kuX : (s.withEdgesG kd ku prev).kuX = s.kuX := rfl
@[simp] theorem withEdgesG_gstate : (s.withEdgesG kd ku prev).gstate = s.gstate := rfl
@[simp] theorem withEdgesG_gact : (s.withEdgesG kd ku prev).gact = s.gact := rfl
@[simp] theorem withEdgesG_relkey : (s.withEdgesG kd ku prev).relkey = s.relkey := rfl
@[simp] theorem withEdgesG_gout : (s.withEdgesG kd ku prev).gout = s.gout := rfl
@[simp] theorem withEdgesG_bank : (s.withEdgesG kd ku prev).bank = s.bank := rfl
@[simp] theorem withEdgesG_lastmode : (s.withEdgesG kd ku prev).lastmode = s.lastmode := rfl
@[simp] theorem withEdgesG_evt : (s.withEdgesG kd ku prev).evt = s.evt := rfl
@[simp] theorem withEdgesG_evtCnt : (s.withEdgesG kd ku prev).evtCnt = s.evtCnt := rfl
@[simp] theorem withEdgesG_status : (s.withEdgesG kd ku prev).status = s.status := rfl
@[simp] theorem withEdgesG_pins : (s.withEdgesG kd ku prev).pins = s.pins := rfl
@[simp] theorem withEdgesG_upcoming : (s.withEdgesG kd ku prev).upcoming = s.upcoming := rfl
@[simp] theorem withEdgesG_freeDraws : (s.withEdgesG kd ku prev).freeDraws = s.freeDraws := rfl

end

section
variable (s : State) (kd ku prev : ExpMask)

@[simp] theorem withEdgesX_depth : (s.withEdgesX kd ku prev).depth = s.depth := rfl
@[simp] theorem withEdgesX_ringG : (s.withEdgesX kd ku prev).ringG = s.ringG := rfl
@[simp] theorem withEdgesX_ringX : (s.withEdgesX kd ku prev).ringX = s.ringX := rfl
@[simp] theorem withEdgesX_wpG : (s.withEdgesX kd ku prev).wpG = s.wpG := rfl
@[simp] theorem withEdgesX_wpX : (s.withEdgesX kd ku prev).wpX = s.wpX := rfl
@[simp] theorem withEdgesX_stateG : (s.withEdgesX kd ku prev).stateG = s.stateG := rfl
@[simp] theorem withEdgesX_stateX : (s.withEdgesX kd ku prev).stateX = s.stateX := rfl
@[simp] theorem withEdgesX_prevG : (s.withEdgesX kd ku prev).prevG = s.prevG := rfl
@[simp] theorem withEdgesX_prevX : (s.withEdgesX kd ku prev).prevX = prev := rfl
@[simp] theorem withEdgesX_kdG : (s.withEdgesX kd ku prev).kdG = s.kdG := rfl
@[simp] theorem withEdgesX_kuG : (s.withEdgesX kd ku prev).kuG = s.kuG := rfl
@[simp] theorem withEdgesX_kdX : (s.withEdgesX kd ku prev).kdX = kd := rfl
@[simp] theorem withEdgesX_kuX : (s.withEdgesX kd ku prev).kuX = ku := rfl
@[simp] theorem withEdgesX_gstate : (s.withEdgesX kd ku prev).gstate = s.gstate := rfl
@[simp] theorem withEdgesX_gact : (s.withEdgesX kd ku prev).gact = s.gact := rfl
@[simp] theorem withEdgesX_relkey : (s.withEdgesX kd ku prev).relkey = s.relkey := rfl
@[simp] theorem withEdgesX_gout : (s.withEdgesX kd ku prev).gout = s.gout := rfl
@[simp] theorem withEdgesX_bank : (s.withEdgesX kd ku prev).bank = s.bank := rfl
@[simp] theorem withEdgesX_lastmode : (s.withEdgesX kd ku prev).lastmode = s.lastmode := rfl
@[simp] theorem withEdgesX_evt : (s.withEdgesX kd ku prev).evt = s.evt := rfl
@[simp] theorem withEdgesX_evtCnt : (s.withEdgesX kd ku prev).evtCnt = s.evtCnt := rfl
@[simp] theorem withEdgesX_status : (s.withEdgesX kd ku prev).status = s.status := rfl
@[simp] theorem withEdgesX_pins : (s.withEdgesX kd ku prev).pins = s.pins := rfl
@[simp] theorem withEdgesX_upcoming : (s.withEdgesX kd ku prev).upcoming = s.upcoming := rfl
@[simp] theorem withEdgesX_freeDraws : (s.withEdgesX kd ku prev).freeDraws = s.freeDraws := rfl

end

section
variable (s : State) (gs : GStateId) (act : ActionCode) (key : GridMask) (out : ActionCode)

@[simp] theorem withGesture_depth : (s.withGesture gs act key out).depth = s.depth := rfl
@[simp] theorem withGesture_ringG : (s.withGesture gs act key out).ringG = s.ringG := rfl
@[simp] theorem withGesture_ringX : (s.withGesture gs act key out).ringX = s.ringX := rfl
@[simp] theorem withGesture_wpG : (s.withGesture gs act key out).wpG = s.wpG := rfl
@[simp] theorem withGesture_wpX : (s.withGesture gs act key out).wpX = s.wpX := rfl
@[simp] theorem withGesture_stateG : (s.withGesture gs act key out).stateG = s.stateG := rfl
@[simp] theorem withGesture_stateX : (s.withGesture gs act key out).stateX = s.stateX := rfl
@[simp] theorem withGesture_prevG : (s.withGesture gs act key out).prevG = s.prevG := rfl
@[simp] theorem withGesture_prevX : (s.withGesture gs act key out).prevX = s.prevX := rfl
@[simp] theorem withGesture_kdG : (s.withGesture gs act key out).kdG = s.kdG := rfl
@[simp] theorem withGesture_kuG : (s.withGesture gs act key out).kuG = s.kuG := rfl
@[simp] theorem withGesture_kdX : (s.withGesture gs act key out).kdX = s.kdX := rfl
@[simp] theorem withGesture_kuX : (s.withGesture gs act key out).kuX = s.kuX := rfl
@[simp] theorem withGesture_gstate : (s.withGesture gs act key out).gstate = gs := rfl
@[simp] theorem withGesture_gact : (s.withGesture gs act key out).gact = act := rfl
@[simp] theorem withGesture_relkey : (s.withGesture gs act key out).relkey = key := rfl
@[simp] theorem withGesture_gout : (s.withGesture gs act key out).gout = out := rfl
@[simp] theorem withGesture_bank : (s.withGesture gs act key out).bank = s.bank := rfl
@[simp] theorem withGesture_lastmode : (s.withGesture gs act key out).lastmode = s.lastmode := rfl
@[simp] theorem withGesture_evt : (s.withGesture gs act key out).evt = s.evt := rfl
@[simp] theorem withGesture_evtCnt : (s.withGesture gs act key out).evtCnt = s.evtCnt := rfl
@[simp] theorem withGesture_status : (s.withGesture gs act key out).status = s.status := rfl
@[simp] theorem withGesture_pins : (s.withGesture gs act key out).pins = s.pins := rfl
@[simp] theorem withGesture_upcoming : (s.withGesture gs act key out).upcoming = s.upcoming := rfl
@[simp] theorem withGesture_freeDraws : (s.withGesture gs act key out).freeDraws = s.freeDraws := rfl

end

section
variable (s : State) (b : BankNo) (mode : BitVec 2) (entries : List EvtEntry) (count : BitVec 5)

@[simp] theorem withMapper_depth : (s.withMapper b mode entries count).depth = s.depth := rfl
@[simp] theorem withMapper_ringG : (s.withMapper b mode entries count).ringG = s.ringG := rfl
@[simp] theorem withMapper_ringX : (s.withMapper b mode entries count).ringX = s.ringX := rfl
@[simp] theorem withMapper_wpG : (s.withMapper b mode entries count).wpG = s.wpG := rfl
@[simp] theorem withMapper_wpX : (s.withMapper b mode entries count).wpX = s.wpX := rfl
@[simp] theorem withMapper_stateG : (s.withMapper b mode entries count).stateG = s.stateG := rfl
@[simp] theorem withMapper_stateX : (s.withMapper b mode entries count).stateX = s.stateX := rfl
@[simp] theorem withMapper_prevG : (s.withMapper b mode entries count).prevG = s.prevG := rfl
@[simp] theorem withMapper_prevX : (s.withMapper b mode entries count).prevX = s.prevX := rfl
@[simp] theorem withMapper_kdG : (s.withMapper b mode entries count).kdG = s.kdG := rfl
@[simp] theorem withMapper_kuG : (s.withMapper b mode entries count).kuG = s.kuG := rfl
@[simp] theorem withMapper_kdX : (s.withMapper b mode entries count).kdX = s.kdX := rfl
@[simp] theorem withMapper_kuX : (s.withMapper b mode entries count).kuX = s.kuX := rfl
@[simp] theorem withMapper_gstate : (s.withMapper b mode entries count).gstate = s.gstate := rfl
@[simp] theorem withMapper_gact : (s.withMapper b mode entries count).gact = s.gact := rfl
@[simp] theorem withMapper_relkey : (s.withMapper b mode entries count).relkey = s.relkey := rfl
@[simp] theorem withMapper_gout : (s.withMapper b mode entries count).gout = s.gout := rfl
@[simp] theorem withMapper_bank : (s.withMapper b mode entries count).bank = b := rfl
@[simp] theorem withMapper_lastmode : (s.withMapper b mode entries count).lastmode = mode := rfl
@[simp] theorem withMapper_evt : (s.withMapper b mode entries count).evt = entries := rfl
@[simp] theorem withMapper_evtCnt : (s.withMapper b mode entries count).evtCnt = count := rfl
@[simp] theorem withMapper_status : (s.withMapper b mode entries count).status = s.status := rfl
@[simp] theorem withMapper_pins : (s.withMapper b mode entries count).pins = s.pins := rfl
@[simp] theorem withMapper_upcoming : (s.withMapper b mode entries count).upcoming = s.upcoming := rfl
@[simp] theorem withMapper_freeDraws : (s.withMapper b mode entries count).freeDraws = s.freeDraws := rfl

end

section
variable (s : State) (v : BitVec 8)

@[simp] theorem withStatus_depth : (s.withStatus v).depth = s.depth := rfl
@[simp] theorem withStatus_ringG : (s.withStatus v).ringG = s.ringG := rfl
@[simp] theorem withStatus_ringX : (s.withStatus v).ringX = s.ringX := rfl
@[simp] theorem withStatus_wpG : (s.withStatus v).wpG = s.wpG := rfl
@[simp] theorem withStatus_wpX : (s.withStatus v).wpX = s.wpX := rfl
@[simp] theorem withStatus_stateG : (s.withStatus v).stateG = s.stateG := rfl
@[simp] theorem withStatus_stateX : (s.withStatus v).stateX = s.stateX := rfl
@[simp] theorem withStatus_prevG : (s.withStatus v).prevG = s.prevG := rfl
@[simp] theorem withStatus_prevX : (s.withStatus v).prevX = s.prevX := rfl
@[simp] theorem withStatus_kdG : (s.withStatus v).kdG = s.kdG := rfl
@[simp] theorem withStatus_kuG : (s.withStatus v).kuG = s.kuG := rfl
@[simp] theorem withStatus_kdX : (s.withStatus v).kdX = s.kdX := rfl
@[simp] theorem withStatus_kuX : (s.withStatus v).kuX = s.kuX := rfl
@[simp] theorem withStatus_gstate : (s.withStatus v).gstate = s.gstate := rfl
@[simp] theorem withStatus_gact : (s.withStatus v).gact = s.gact := rfl
@[simp] theorem withStatus_relkey : (s.withStatus v).relkey = s.relkey := rfl
@[simp] theorem withStatus_gout : (s.withStatus v).gout = s.gout := rfl
@[simp] theorem withStatus_bank : (s.withStatus v).bank = s.bank := rfl
@[simp] theorem withStatus_lastmode : (s.withStatus v).lastmode = s.lastmode := rfl
@[simp] theorem withStatus_evt : (s.withStatus v).evt = s.evt := rfl
@[simp] theorem withStatus_evtCnt : (s.withStatus v).evtCnt = s.evtCnt := rfl
@[simp] theorem withStatus_status : (s.withStatus v).status = v := rfl
@[simp] theorem withStatus_pins : (s.withStatus v).pins = s.pins := rfl
@[simp] theorem withStatus_upcoming : (s.withStatus v).upcoming = s.upcoming := rfl
@[simp] theorem withStatus_freeDraws : (s.withStatus v).freeDraws = s.freeDraws := rfl

end

section
variable (s : State) (p : Pins)

@[simp] theorem withPins_depth : (s.withPins p).depth = s.depth := rfl
@[simp] theorem withPins_ringG : (s.withPins p).ringG = s.ringG := rfl
@[simp] theorem withPins_ringX : (s.withPins p).ringX = s.ringX := rfl
@[simp] theorem withPins_wpG : (s.withPins p).wpG = s.wpG := rfl
@[simp] theorem withPins_wpX : (s.withPins p).wpX = s.wpX := rfl
@[simp] theorem withPins_stateG : (s.withPins p).stateG = s.stateG := rfl
@[simp] theorem withPins_stateX : (s.withPins p).stateX = s.stateX := rfl
@[simp] theorem withPins_prevG : (s.withPins p).prevG = s.prevG := rfl
@[simp] theorem withPins_prevX : (s.withPins p).prevX = s.prevX := rfl
@[simp] theorem withPins_kdG : (s.withPins p).kdG = s.kdG := rfl
@[simp] theorem withPins_kuG : (s.withPins p).kuG = s.kuG := rfl
@[simp] theorem withPins_kdX : (s.withPins p).kdX = s.kdX := rfl
@[simp] theorem withPins_kuX : (s.withPins p).kuX = s.kuX := rfl
@[simp] theorem withPins_gstate : (s.withPins p).gstate = s.gstate := rfl
@[simp] theorem withPins_gact : (s.withPins p).gact = s.gact := rfl
@[simp] theorem withPins_relkey : (s.withPins p).relkey = s.relkey := rfl
@[simp] theorem withPins_gout : (s.withPins p).gout = s.gout := rfl
@[simp] theorem withPins_bank : (s.withPins p).bank = s.bank := rfl
@[simp] theorem withPins_lastmode : (s.withPins p).lastmode = s.lastmode := rfl
@[simp] theorem withPins_evt : (s.withPins p).evt = s.evt := rfl
@[simp] theorem withPins_evtCnt : (s.withPins p).evtCnt = s.evtCnt := rfl
@[simp] theorem withPins_status : (s.withPins p).status = s.status := rfl
@[simp] theorem withPins_pins : (s.withPins p).pins = p := rfl
@[simp] theorem withPins_upcoming : (s.withPins p).upcoming = s.upcoming := rfl
@[simp] theorem withPins_freeDraws : (s.withPins p).freeDraws = s.freeDraws := rfl

end

section
variable (s : State) (ps : List Pins)

@[simp] theorem withUpcoming_depth : (s.withUpcoming ps).depth = s.depth := rfl
@[simp] theorem withUpcoming_ringG : (s.withUpcoming ps).ringG = s.ringG := rfl
@[simp] theorem withUpcoming_ringX : (s.withUpcoming ps).ringX = s.ringX := rfl
@[simp] theorem withUpcoming_wpG : (s.withUpcoming ps).wpG = s.wpG := rfl
@[simp] theorem withUpcoming_wpX : (s.withUpcoming ps).wpX = s.wpX := rfl
@[simp] theorem withUpcoming_stateG : (s.withUpcoming ps).stateG = s.stateG := rfl
@[simp] theorem withUpcoming_stateX : (s.withUpcoming ps).stateX = s.stateX := rfl
@[simp] theorem withUpcoming_prevG : (s.withUpcoming ps).prevG = s.prevG := rfl
@[simp] theorem withUpcoming_prevX : (s.withUpcoming ps).prevX = s.prevX := rfl
@[simp] theorem withUpcoming_kdG : (s.withUpcoming ps).kdG = s.kdG := rfl
@[simp] theorem withUpcoming_kuG : (s.withUpcoming ps).kuG = s.kuG := rfl
@[simp] theorem withUpcoming_kdX : (s.withUpcoming ps).kdX = s.kdX := rfl
@[simp] theorem withUpcoming_kuX : (s.withUpcoming ps).kuX = s.kuX := rfl
@[simp] theorem withUpcoming_gstate : (s.withUpcoming ps).gstate = s.gstate := rfl
@[simp] theorem withUpcoming_gact : (s.withUpcoming ps).gact = s.gact := rfl
@[simp] theorem withUpcoming_relkey : (s.withUpcoming ps).relkey = s.relkey := rfl
@[simp] theorem withUpcoming_gout : (s.withUpcoming ps).gout = s.gout := rfl
@[simp] theorem withUpcoming_bank : (s.withUpcoming ps).bank = s.bank := rfl
@[simp] theorem withUpcoming_lastmode : (s.withUpcoming ps).lastmode = s.lastmode := rfl
@[simp] theorem withUpcoming_evt : (s.withUpcoming ps).evt = s.evt := rfl
@[simp] theorem withUpcoming_evtCnt : (s.withUpcoming ps).evtCnt = s.evtCnt := rfl
@[simp] theorem withUpcoming_status : (s.withUpcoming ps).status = s.status := rfl
@[simp] theorem withUpcoming_pins : (s.withUpcoming ps).pins = s.pins := rfl
@[simp] theorem withUpcoming_upcoming : (s.withUpcoming ps).upcoming = ps := rfl
@[simp] theorem withUpcoming_freeDraws : (s.withUpcoming ps).freeDraws = s.freeDraws := rfl

end

section
variable (s : State) (n : Nat)

@[simp] theorem withFreeDraws_depth : (s.withFreeDraws n).depth = s.depth := rfl
@[simp] theorem withFreeDraws_ringG : (s.withFreeDraws n).ringG = s.ringG := rfl
@[simp] theorem withFreeDraws_ringX : (s.withFreeDraws n).ringX = s.ringX := rfl
@[simp] theorem withFreeDraws_wpG : (s.withFreeDraws n).wpG = s.wpG := rfl
@[simp] theorem withFreeDraws_wpX : (s.withFreeDraws n).wpX = s.wpX := rfl
@[simp] theorem withFreeDraws_stateG : (s.withFreeDraws n).stateG = s.stateG := rfl
@[simp] theorem withFreeDraws_stateX : (s.withFreeDraws n).stateX = s.stateX := rfl
@[simp] theorem withFreeDraws_prevG : (s.withFreeDraws n).prevG = s.prevG := rfl
@[simp] theorem withFreeDraws_prevX : (s.withFreeDraws n).prevX = s.prevX := rfl
@[simp] theorem withFreeDraws_kdG : (s.withFreeDraws n).kdG = s.kdG := rfl
@[simp] theorem withFreeDraws_kuG : (s.withFreeDraws n).kuG = s.kuG := rfl
@[simp] theorem withFreeDraws_kdX : (s.withFreeDraws n).kdX = s.kdX := rfl
@[simp] theorem withFreeDraws_kuX : (s.withFreeDraws n).kuX = s.kuX := rfl
@[simp] theorem withFreeDraws_gstate : (s.withFreeDraws n).gstate = s.gstate := rfl
@[simp] theorem withFreeDraws_gact : (s.withFreeDraws n).gact = s.gact := rfl
@[simp] theorem withFreeDraws_relkey : (s.withFreeDraws n).relkey = s.relkey := rfl
@[simp] theorem withFreeDraws_gout : (s.withFreeDraws n).gout = s.gout := rfl
@[simp] theorem withFreeDraws_bank : (s.withFreeDraws n).bank = s.bank := rfl
@[simp] theorem withFreeDraws_lastmode : (s.withFreeDraws n).lastmode = s.lastmode := rfl
@[simp] theorem withFreeDraws_evt : (s.withFreeDraws n).evt = s.evt := rfl
@[simp] theorem withFreeDraws_evtCnt : (s.withFreeDraws n).evtCnt = s.evtCnt := rfl
@[simp] theorem withFreeDraws_status : (s.withFreeDraws n).status = s.status := rfl
@[simp] theorem withFreeDraws_pins : (s.withFreeDraws n).pins = s.pins := rfl
@[simp] theorem withFreeDraws_upcoming : (s.withFreeDraws n).upcoming = s.upcoming := rfl
@[simp] theorem withFreeDraws_freeDraws : (s.withFreeDraws n).freeDraws = n := rfl

end

end Sys2Proof.Machine.State
end

