-- ==== Sys2Proof/Laws/Ops.lean ====
section
/-! SUPPORT. What each shared operation can do, said once: the sequencing of results, the rings, the status
fields, the bit primitives, the reset action and the passage to the next cycle. -/

namespace Sys2Proof.Machine

section Sequencing

@[simp] theorem andThen_of_next (s : State) (f : State → Result) : andThen (.next s) f = f s := rfl

@[simp] theorem andThen_of_fault (e : Fault) (f : State → Result) : andThen (.fault e) f = .fault e := rfl

@[simp] theorem andThen_of_refused (e : Refusal) (f : State → Result) :
    andThen (.refused e) f = .refused e := rfl

/-- A sequence answers a next state exactly when its first part does and its second part does from there. -/
theorem andThen_next_iff (r : Result) (f : State → Result) (t : State) :
    andThen r f = .next t ↔ ∃ u, r = .next u ∧ f u = .next t := by
  cases r <;> simp [andThen]

end Sequencing

section Rings

theorem depthLegal_iff (d : Nat) : depthLegal d = true ↔ 1 ≤ d ∧ d ≤ 16 := by
  rw [depthLegal, Bool.and_eq_true, decide_eq_true_eq, decide_eq_true_eq]
  rfl

variable {w : Nat}

theorem ringWf_iff (d : Nat) (ring : List (BitVec w)) : ringWf d ring = true ↔ ring.length = d := by
  simp [ringWf]

/-- A ring write answers exactly when the ring has `DEPTH` slots and the named one, and then it is that slot's
replacement. -/
theorem ringWrite_eq_some_iff (d : Nat) (ring out : List (BitVec w)) (j : Nat) (v : BitVec w) :
    ringWrite d ring j v = some out ↔ ring.length = d ∧ j < d ∧ out = ring.set j v := by
  simp only [ringWrite, ringWf, Bool.and_eq_true, beq_iff_eq, decide_eq_true_eq]
  split
  · next h => simp [h, eq_comm]
  · next h => simp only [reduceCtorEq, false_iff]; tauto

/-- A ring write finds no slot exactly when the ring has not `DEPTH` slots or not the named one. -/
theorem ringWrite_eq_none_iff (d : Nat) (ring : List (BitVec w)) (j : Nat) (v : BitVec w) :
    ringWrite d ring j v = none ↔ ring.length ≠ d ∨ d ≤ j := by
  simp only [ringWrite, ringWf, Bool.and_eq_true, beq_iff_eq, decide_eq_true_eq]
  split
  · next h => simp only [reduceCtorEq, false_iff]; omega
  · next h => simp only [true_iff]; omega

/-- A ring write keeps the canonical form. -/
theorem ringWrite_wf {d : Nat} {ring out : List (BitVec w)} {j : Nat} {v : BitVec w}
    (h : ringWrite d ring j v = some out) : ringWf d out = true := by
  obtain ⟨hl, -, rfl⟩ := (ringWrite_eq_some_iff ..).1 h
  simp [ringWf, hl]

/-- A read after a write to the same slot gives the written word. -/
theorem ringRead_after_write_same {d : Nat} {ring out : List (BitVec w)} {j : Nat} {v : BitVec w}
    (h : ringWrite d ring j v = some out) : ringRead out j = some v := by
  obtain ⟨hl, hj, rfl⟩ := (ringWrite_eq_some_iff ..).1 h
  simp [ringRead, hl, hj]

/-- A write leaves every other slot alone. -/
theorem ringRead_after_write_other {d : Nat} {ring out : List (BitVec w)} {j k : Nat} {v : BitVec w}
    (h : ringWrite d ring j v = some out) (hk : k ≠ j) : ringRead out k = ringRead ring k := by
  obtain ⟨-, -, rfl⟩ := (ringWrite_eq_some_iff ..).1 h
  simp [ringRead, List.getElem?_set_ne (Ne.symm hk)]

/-- A bit of an AND over a list is the bit of the start and of every element. -/
theorem foldl_and_getLsbD (ring : List (BitVec w)) (m : BitVec w) (i : Nat) :
    (ring.foldl (· &&& ·) m).getLsbD i = (m.getLsbD i && ring.all (·.getLsbD i)) := by
  induction ring generalizing m with
  | nil => simp
  | cons v rest ih => simp [ih, Bool.and_assoc]

/-- The window AND answers exactly when the ring has `DEPTH` slots. -/
theorem windowAnd_eq_some_iff (d : Nat) (ring : List (BitVec w)) (v : BitVec w) :
    windowAnd d ring = some v ↔ ring.length = d ∧ v = ring.foldl (· &&& ·) (BitVec.allOnes w) := by
  simp only [windowAnd, ringWf, beq_iff_eq]
  split <;> simp_all [eq_comm]

/-- A bit of the window AND is set exactly when every slot has it. -/
theorem windowAnd_getLsbD {d : Nat} {ring : List (BitVec w)} {v : BitVec w}
    (h : windowAnd d ring = some v) {i : Nat} (hi : i < w) :
    v.getLsbD i = ring.all (·.getLsbD i) := by
  obtain ⟨-, rfl⟩ := (windowAnd_eq_some_iff ..).1 h
  rw [foldl_and_getLsbD, BitVec.getLsbD_allOnes, decide_eq_true hi, Bool.true_and]

/-- The advanced pointer of a legal depth is the next slot, round. -/
theorem advancePointer_toNat {d : Nat} (hd : depthLegal d = true) (wp : BitVec 4) :
    (advancePointer d wp).toNat = (wp.toNat + 1) % d := by
  obtain ⟨h1, h16⟩ := (depthLegal_iff d).1 hd
  have hlt := Nat.mod_lt (wp.toNat + 1) h1
  rw [advancePointer, BitVec.toNat_ofNat, Nat.mod_eq_of_lt (by omega)]

end Rings

section Edges

variable {w : Nat}

theorem keydownEdges_getLsbD (prev cur : BitVec w) (i : Nat) :
    (keydownEdges prev cur).getLsbD i = (cur.getLsbD i && !prev.getLsbD i) := by
  simp only [keydownEdges, BitVec.getLsbD_and, BitVec.getLsbD_xor]
  cases prev.getLsbD i <;> cases cur.getLsbD i <;> rfl

theorem keyupEdges_getLsbD (prev cur : BitVec w) (i : Nat) :
    (keyupEdges prev cur).getLsbD i = (prev.getLsbD i && !cur.getLsbD i) := by
  simp only [keyupEdges, BitVec.getLsbD_and, BitVec.getLsbD_xor]
  cases prev.getLsbD i <;> cases cur.getLsbD i <;> rfl

end Edges

section Status

/-- The fields of a packed status read back as they were, and the reserved bits are 0. -/
theorem packStatus_fields (ill oor : Bool) (c : BitVec 3) :
    (packStatus ill oor c).getLsbD 0 = ill ∧ (packStatus ill oor c).getLsbD 1 = oor ∧
      (packStatus ill oor c).extractLsb' 2 3 = c ∧ (packStatus ill oor c).extractLsb' 5 3 = 0#3 := by
  revert ill oor c; decide

variable (s : State) (ill oor : Bool) (c : BitVec 3)

@[simp] theorem setStatusFields_illegalFlag : (s.setStatusFields ill oor c).illegalFlag = ill :=
  (packStatus_fields ill oor c).1

@[simp] theorem setStatusFields_noteOor : (s.setStatusFields ill oor c).noteOor = oor :=
  (packStatus_fields ill oor c).2.1

@[simp] theorem setStatusFields_icause : (s.setStatusFields ill oor c).icause = c :=
  (packStatus_fields ill oor c).2.2.1

theorem setStatusFields_reserved : (s.setStatusFields ill oor c).status.extractLsb' 5 3 = 0#3 :=
  (packStatus_fields ill oor c).2.2.2

/-- Raising Illegal is a write of `STATUS`, and of nothing else. -/
theorem raiseIllegal_eq (k : Cause) (s : State) :
    raiseIllegal k s = s.withStatus
      (packStatus true s.noteOor (if s.illegalFlag then s.icause else causeCode k)) := rfl

/-- Clearing `STATUS` writes 0x00 and nothing else. -/
theorem clearStatus_eq (s : State) : clearStatus s = s.withStatus 0x00#8 := rfl

/-- Flagging notes is a write of `STATUS` at most. -/
theorem flagNotes_eq (s : State) (ev : List NoteEvent) :
    s.flagNotes ev = s.withStatus (s.flagNotes ev).status := by
  unfold State.flagNotes
  split <;> rfl

@[simp] theorem flagNotes_noteOor (s : State) (ev : List NoteEvent) :
    (s.flagNotes ev).noteOor = (s.noteOor || anyNoteOutOfRange ev) := by
  unfold State.flagNotes
  split <;> simp_all

@[simp] theorem flagNotes_illegalFlag (s : State) (ev : List NoteEvent) :
    (s.flagNotes ev).illegalFlag = s.illegalFlag := by
  unfold State.flagNotes
  split <;> simp

@[simp] theorem flagNotes_icause (s : State) (ev : List NoteEvent) :
    (s.flagNotes ev).icause = s.icause := by
  unfold State.flagNotes
  split <;> simp

end Status

section Bits

/-- A bit of `lowestSetBit` is set exactly when it is set in the mask and no lower one is. -/
theorem lowestSetBit_getLsbD (m : GridMask) (i : Nat) :
    (lowestSetBit m).getLsbD i = (m.getLsbD i && decide (∀ j, j < i → m.getLsbD j = false)) := by
  rw [lowestSetBit, BitVec.getLsbD_and, ← BitVec.neg_eq_not_add, BitVec.getLsbD_neg]
  by_cases hi : i < 16
  · by_cases h : ∀ j, j < i → m.getLsbD j = false
    · simp_all
    · have h' : ∃ j, j < i ∧ m.getLsbD j = true := by simpa using h
      cases hm : m.getLsbD i <;> simp [h, h', hi]
  · simp [BitVec.getLsbD_of_ge m i (by omega)]

/-- The lowest set bit of an empty mask is empty; of any other it is one key's bit, the lowest set one's. -/
theorem lowestSetBit_cases (m : GridMask) :
    (m = 0#16 ∧ lowestSetBit m = 0#16) ∨
      ∃ k, k < 16 ∧ m.getLsbD k = true ∧ (∀ j, j < k → m.getLsbD j = false) ∧
        lowestSetBit m = BitVec.twoPow 16 k := by
  by_cases h : ∃ k, m.getLsbD k = true
  · classical
    refine Or.inr ⟨Nat.find h, ?_, Nat.find_spec h, fun j hj => ?_, ?_⟩
    · exact BitVec.lt_of_getLsbD (Nat.find_spec h)
    · simpa using Nat.find_min h hj
    · ext i hi
      rw [← BitVec.getLsbD_eq_getElem, ← BitVec.getLsbD_eq_getElem, lowestSetBit_getLsbD,
        BitVec.getLsbD_twoPow]
      rcases Nat.lt_trichotomy i (Nat.find h) with hlt | rfl | hgt
      · simp [Nat.find_min h hlt, (show Nat.find h ≠ i by omega)]
      · have := fun j (hj : j < Nat.find h) => Nat.find_min h hj
        simp_all [Nat.find_spec h]
      · have hne : ¬ ∀ j, j < i → m.getLsbD j = false := fun hall => by
          simpa [hall _ hgt] using Nat.find_spec h
        simp [hne, (show Nat.find h ≠ i by omega)]
  · have hz : m = 0#16 := by
      ext i hi
      simpa [BitVec.getLsbD_eq_getElem hi] using (not_exists.1 h) i
    exact Or.inl ⟨hz, by subst hz; rfl⟩

/-- `ctz` names the lowest set bit of a nonzero mask of bank selectors. -/
theorem ctz_lowest (m : ExpMask) (h : m ≠ 0#4) :
    m.getLsbD (ctz m).toNat = true ∧ ∀ j, j < (ctz m).toNat → m.getLsbD j = false := by
  revert m; decide

end Bits

section Cycle

/-- The reset action leaves the depth, the inputs and the counter, and nothing else of the old state. -/
theorem resetAction_eq (s : State) :
    resetAction s = { State.initial s.depth with
      pins := s.pins, upcoming := s.upcoming, freeDraws := s.freeDraws } := rfl

/-- The passage to the next cycle writes the inputs and nothing else. -/
theorem advanceCycle_eq (s : State) :
    advanceCycle s = { s with
      pins := s.upcoming.headD s.pins.released, upcoming := s.upcoming.tail } := by
  rcases s with ⟨⟩
  unfold advanceCycle
  split <;> simp_all [State.withPins, State.withUpcoming]

@[simp] theorem advanceCycle_depth (s : State) : (advanceCycle s).depth = s.depth := by rw [advanceCycle_eq]
@[simp] theorem advanceCycle_ringG (s : State) : (advanceCycle s).ringG = s.ringG := by rw [advanceCycle_eq]
@[simp] theorem advanceCycle_ringX (s : State) : (advanceCycle s).ringX = s.ringX := by rw [advanceCycle_eq]
@[simp] theorem advanceCycle_wpG (s : State) : (advanceCycle s).wpG = s.wpG := by rw [advanceCycle_eq]
@[simp] theorem advanceCycle_wpX (s : State) : (advanceCycle s).wpX = s.wpX := by rw [advanceCycle_eq]
@[simp] theorem advanceCycle_stateG (s : State) : (advanceCycle s).stateG = s.stateG := by rw [advanceCycle_eq]
@[simp] theorem advanceCycle_stateX (s : State) : (advanceCycle s).stateX = s.stateX := by rw [advanceCycle_eq]
@[simp] theorem advanceCycle_prevG (s : State) : (advanceCycle s).prevG = s.prevG := by rw [advanceCycle_eq]
@[simp] theorem advanceCycle_prevX (s : State) : (advanceCycle s).prevX = s.prevX := by rw [advanceCycle_eq]
@[simp] theorem advanceCycle_kdG (s : State) : (advanceCycle s).kdG = s.kdG := by rw [advanceCycle_eq]
@[simp] theorem advanceCycle_kuG (s : State) : (advanceCycle s).kuG = s.kuG := by rw [advanceCycle_eq]
@[simp] theorem advanceCycle_kdX (s : State) : (advanceCycle s).kdX = s.kdX := by rw [advanceCycle_eq]
@[simp] theorem advanceCycle_kuX (s : State) : (advanceCycle s).kuX = s.kuX := by rw [advanceCycle_eq]
@[simp] theorem advanceCycle_gstate (s : State) : (advanceCycle s).gstate = s.gstate := by rw [advanceCycle_eq]
@[simp] theorem advanceCycle_gact (s : State) : (advanceCycle s).gact = s.gact := by rw [advanceCycle_eq]
@[simp] theorem advanceCycle_relkey (s : State) : (advanceCycle s).relkey = s.relkey := by rw [advanceCycle_eq]
@[simp] theorem advanceCycle_gout (s : State) : (advanceCycle s).gout = s.gout := by rw [advanceCycle_eq]
@[simp] theorem advanceCycle_bank (s : State) : (advanceCycle s).bank = s.bank := by rw [advanceCycle_eq]
@[simp] theorem advanceCycle_lastmode (s : State) : (advanceCycle s).lastmode = s.lastmode := by rw [advanceCycle_eq]
@[simp] theorem advanceCycle_evt (s : State) : (advanceCycle s).evt = s.evt := by rw [advanceCycle_eq]
@[simp] theorem advanceCycle_evtCnt (s : State) : (advanceCycle s).evtCnt = s.evtCnt := by rw [advanceCycle_eq]
@[simp] theorem advanceCycle_status (s : State) : (advanceCycle s).status = s.status := by rw [advanceCycle_eq]
@[simp] theorem advanceCycle_freeDraws (s : State) : (advanceCycle s).freeDraws = s.freeDraws := by rw [advanceCycle_eq]

@[simp] theorem advanceCycle_illegalFlag (s : State) : (advanceCycle s).illegalFlag = s.illegalFlag := by
  rw [State.illegalFlag, advanceCycle_status, State.illegalFlag]

@[simp] theorem advanceCycle_noteOor (s : State) : (advanceCycle s).noteOor = s.noteOor := by
  rw [State.noteOor, advanceCycle_status, State.noteOor]

@[simp] theorem advanceCycle_icause (s : State) : (advanceCycle s).icause = s.icause := by
  rw [State.icause, advanceCycle_status, State.icause]

end Cycle

end Sys2Proof.Machine
end

