-- ==== Sys2Proof/Laws/Debounce.lean ====
section
/-! SUPPORT. What SAMPLE, READ and CALC can do, each said once (spec/40_debounce.md). -/

namespace Sys2Proof.Machine

variable (s t : State)

/-- SAMPLE.G answers exactly when the ring has the slot that `WP_G` names, and then writes it and moves on. -/
theorem execSampleG_next_iff : execSampleG s = .next t ↔
    s.ringG.length = s.depth ∧ s.wpG.toNat < s.depth ∧
      t = s.withRingG (s.ringG.set s.wpG.toNat s.rawG) (advancePointer s.depth s.wpG) := by
  unfold execSampleG
  split
  · next ring h =>
    obtain ⟨hl, hj, rfl⟩ := (ringWrite_eq_some_iff ..).1 h
    simp [hl, hj, eq_comm]
  · next h =>
    have := (ringWrite_eq_none_iff ..).1 h
    simp only [reduceCtorEq, false_iff]
    omega

/-- SAMPLE.X answers exactly when the ring has the slot that `WP_X` names, and then writes it and moves on. -/
theorem execSampleX_next_iff : execSampleX s = .next t ↔
    s.ringX.length = s.depth ∧ s.wpX.toNat < s.depth ∧
      t = s.withRingX (s.ringX.set s.wpX.toNat s.rawX) (advancePointer s.depth s.wpX) := by
  unfold execSampleX
  split
  · next ring h =>
    obtain ⟨hl, hj, rfl⟩ := (ringWrite_eq_some_iff ..).1 h
    simp [hl, hj, eq_comm]
  · next h =>
    have := (ringWrite_eq_none_iff ..).1 h
    simp only [reduceCtorEq, false_iff]
    omega

/-- READ.G answers exactly when the ring has `DEPTH` slots, and then writes their AND. -/
theorem execReadG_next_iff : execReadG s = .next t ↔
    s.ringG.length = s.depth ∧ t = s.withStateG (s.ringG.foldl (· &&& ·) (BitVec.allOnes 16)) := by
  unfold execReadG
  split
  · next v h =>
    obtain ⟨hl, rfl⟩ := (windowAnd_eq_some_iff ..).1 h
    simp [hl, eq_comm]
  · next h =>
    simp only [reduceCtorEq, false_iff, not_and]
    intro hl
    simp [windowAnd, ringWf, hl] at h

/-- READ.X answers exactly when the ring has `DEPTH` slots, and then writes their AND. -/
theorem execReadX_next_iff : execReadX s = .next t ↔
    s.ringX.length = s.depth ∧ t = s.withStateX (s.ringX.foldl (· &&& ·) (BitVec.allOnes 4)) := by
  unfold execReadX
  split
  · next v h =>
    obtain ⟨hl, rfl⟩ := (windowAnd_eq_some_iff ..).1 h
    simp [hl, eq_comm]
  · next h =>
    simp only [reduceCtorEq, false_iff, not_and]
    intro hl
    simp [windowAnd, ringWf, hl] at h

/-- CALC.G always answers. -/
theorem execCalcG_next_iff : execCalcG s = .next t ↔
    t = s.withEdgesG (keydownEdges s.prevG s.stateG) (keyupEdges s.prevG s.stateG) s.stateG := by
  simp [execCalcG, eq_comm]

/-- CALC.X always answers. -/
theorem execCalcX_next_iff : execCalcX s = .next t ↔
    t = s.withEdgesX (keydownEdges s.prevX s.stateX) (keyupEdges s.prevX s.stateX) s.stateX := by
  simp [execCalcX, eq_comm]

end Sys2Proof.Machine
end

