-- ==== Sys2Proof/Laws/Decode.lean ====
section
/-! SUPPORT. The fields of a command word, and what the decoder can answer. -/

namespace Sys2Proof

/-- A word is made of its fields. -/
theorem packF1_fields (w : Word) :
    packF1 (fieldOp w) (fieldCh w) (fieldMode w) (fieldRsv w) = w := by
  ext i hi
  interval_cases i <;> simp [packF1, fieldOp, fieldCh, fieldMode, fieldRsv]

/-- The fields of a word with nothing reserved are those it was made of. -/
theorem fields_packF1_zero (op : BitVec 4) (ch : BitVec 1) (mode : BitVec 2) :
    fieldOp (packF1 op ch mode 0) = op ∧ fieldCh (packF1 op ch mode 0) = ch ∧
      fieldMode (packF1 op ch mode 0) = mode ∧ fieldRsv (packF1 op ch mode 0) = 0 := by
  revert op ch mode; decide

/-- A word is determined by its opcode, channel and mode where nothing is reserved in it. -/
theorem eq_packF1_of_rsv_zero (w : Word) (h : fieldRsv w = 0#9) :
    w = packF1 (fieldOp w) (fieldCh w) (fieldMode w) 0 := by
  have := packF1_fields w
  rw [h] at this
  exact this.symm

/-- A word that a port takes for legal has nothing reserved set. -/
theorem fieldRsv_of_no_cause {p : Port} {w : Word} (h : illegalCause p w = none) : fieldRsv w = 0#9 := by
  have hs : isSampleWord w = true → fieldRsv w = 0#9 := by
    intro hw
    rcases (by simpa [isSampleWord] using hw : w = 0x1000#16 ∨ w = 0x1800#16) with rfl | rfl <;> decide
  cases p with
  | producer => exact hs (by by_contra hn; simp [illegalCause, hn] at h)
  | consumer =>
    by_contra hn
    have hstray : strayField w = true := by simp [strayField, hn]
    simp only [illegalCause, hstray] at h
    split_ifs at h

/-- The decoder's last case answers no word: a word without a cause names a command. -/
theorem decode_last_case_unused (p : Port) (op : BitVec 4) (ch : BitVec 1) (mode : BitVec 2) :
    illegalCause p (packF1 op ch mode 0) = none → (instrOfFields op ch mode).isSome = true := by
  cases p <;> revert op ch mode <;> decide

/-- The decoder answers a cause exactly where there is one. -/
theorem decode_illegal_iff (p : Port) (w : Word) (c : Cause) :
    decode p w = .illegal c ↔ illegalCause p w = some c := by
  cases h : illegalCause p w with
  | some k => simp [decode, h]
  | none =>
    have hw := eq_packF1_of_rsv_zero w (fieldRsv_of_no_cause h)
    have hs := decode_last_case_unused p _ _ _ (hw ▸ h)
    obtain ⟨i, hi⟩ := Option.isSome_iff_exists.1 hs
    simp [decode, h, hi]

/-- The decoder answers a command exactly where there is no cause, and then the one its fields name. -/
theorem decode_legal_iff (p : Port) (w : Word) (i : Instr) :
    decode p w = .legal i ↔
      illegalCause p w = none ∧ instrOfFields (fieldOp w) (fieldCh w) (fieldMode w) = some i := by
  cases h : illegalCause p w with
  | some k => simp [decode, h]
  | none =>
    simp only [decode, h, true_and]
    split <;> simp_all

end Sys2Proof
end

