-- ==== Sys2Proof/Laws/Exec.lean ====
section
/-! SUPPORT. What a command can do, said once: the inversion of `exec`, and the form of a MAP's commit. -/

namespace Sys2Proof.Machine

/-- A MAP's commit is one write of the mapper's registers, of the model's counter and of `STATUS`. -/
theorem commitMap_eq (s : State) (m : BankMode) : ∃ v, s.commitMap m =
    ((s.withMapper (s.mapBank m) (modeCode m) (eventBuffer (s.mapEvents m))
      (s.eventCount m (s.mapEvents m).length)).withFreeDraws
        (s.drawsAfterMap (s.mapEvents m).length)).withStatus v :=
  ⟨_, flagNotes_eq _ _⟩

/-- The MAP command of each bank mode. -/
def mapCommands : List (Instr × BankMode) :=
  [(.mapOff, .off), (.mapInt, .internal), (.mapExt, .external)]

/-- A MAP command answers with its commit. -/
theorem exec_map {i : Instr} {m : BankMode} (h : (i, m) ∈ mapCommands) (s : State) :
    exec i s = .next (s.commitMap m) := by
  simp only [mapCommands, List.mem_cons, Prod.mk.injEq, List.not_mem_nil, or_false] at h
  rcases h with ⟨rfl, rfl⟩ | ⟨rfl, rfl⟩ | ⟨rfl, rfl⟩ <;> rfl

/-- Everything a command that answers a next state can have done. -/
theorem exec_next_cases {i : Instr} {s t : State} (h : exec i s = .next t) :
    (i = .nop ∧ t = s) ∨
    (i = .clrstat ∧ t = s.withStatus 0) ∨
    (i = .sampleG ∧ s.ringG.length = s.depth ∧ s.wpG.toNat < s.depth ∧
      t = s.withRingG (s.ringG.set s.wpG.toNat s.rawG) (advancePointer s.depth s.wpG)) ∨
    (i = .sampleX ∧ s.ringX.length = s.depth ∧ s.wpX.toNat < s.depth ∧
      t = s.withRingX (s.ringX.set s.wpX.toNat s.rawX) (advancePointer s.depth s.wpX)) ∨
    (i = .readG ∧ s.ringG.length = s.depth ∧
      t = s.withStateG (s.ringG.foldl (· &&& ·) (BitVec.allOnes 16))) ∨
    (i = .readX ∧ s.ringX.length = s.depth ∧
      t = s.withStateX (s.ringX.foldl (· &&& ·) (BitVec.allOnes 4))) ∨
    (i = .calcG ∧
      t = s.withEdgesG (keydownEdges s.prevG s.stateG) (keyupEdges s.prevG s.stateG) s.stateG) ∨
    (i = .calcX ∧
      t = s.withEdgesX (keydownEdges s.prevX s.stateX) (keyupEdges s.prevX s.stateX) s.stateX) ∨
    (i = .gesture ∧ ∃ g, g = gestureStep s.gestureRegs s.opKd s.opKu s.opSt ∧
      t = s.withGesture g.gstate g.gact g.relkey g.gout) ∨
    (∃ m, (i, m) ∈ mapCommands ∧ t = s.commitMap m) := by
  cases i <;> simp only [exec] at h <;> simp [mapCommands]
  · cases h; rfl
  · exact (execSampleG_next_iff _ _).1 h
  · exact (execSampleX_next_iff _ _).1 h
  · exact (execReadG_next_iff _ _).1 h
  · exact (execReadX_next_iff _ _).1 h
  all_goals cases h; rfl

end Sys2Proof.Machine
end

