-- ==== Sys2Proof/Laws/Gesture.lean ====
section
/-! SUPPORT. The gesture engine's procedure case by case, and facts about the table walk. -/

namespace Sys2Proof.Machine

/-- The five DOWN codes. -/
theorem isDown_iff (a : ActionCode) : isDown a = true ↔ a ∈ [1#4, 3#4, 5#4, 7#4, 9#4] := by
  revert a; decide

/-- A row that the walk takes is a row of the table, of the state walked in. -/
theorem tableWalk_some {gs : GStateId} {kd ku st : GridMask} {r : GestureRow}
    (h : tableWalk gs kd ku st = some r) : r ∈ gestureTable ∧ r.state = gs := by
  refine ⟨List.mem_of_find?_eq_some h, ?_⟩
  have := List.find?_some h
  simp [rowMatches] at this
  exact this.1

/-- No row of the table tests the live state, so the walk does not depend on it. -/
theorem tableWalk_state_unused (gs : GStateId) (kd ku st st' : GridMask) :
    tableWalk gs kd ku st = tableWalk gs kd ku st' := by
  have hk : ∀ r ∈ gestureTable, r.kind ≠ .state := by decide
  have hc : ∀ l : List GestureRow, (∀ r ∈ l, r.kind ≠ .state) →
      l.find? (rowMatches gs kd ku st) = l.find? (rowMatches gs kd ku st') := by
    intro l
    induction l with
    | nil => intro _; rfl
    | cons r l ih =>
      intro h
      have hr : rowMatches gs kd ku st r = rowMatches gs kd ku st' r := by
        have := h r (by simp)
        simp only [rowMatches, rowMask]
        cases hk : r.kind <;> simp_all
      simp only [List.find?_cons, hr]
      rw [ih fun q hq => h q (by simp [hq])]
  exact hc _ hk

/-- What a poll makes of the state and the action: both stay, or an action is armed, or the engine goes idle,
or a row of the table gives both. -/
theorem gestureStep_cases (g : GestureRegs) (kd ku st : GridMask) :
    ((gestureStep g kd ku st).gstate = g.gstate ∧ (gestureStep g kd ku st).gact = g.gact) ∨
    ((gestureStep g kd ku st).gstate = g.gstate ∧ isDown (gestureStep g kd ku st).gact = true) ∨
    (gestureStep g kd ku st).gstate = 0#6 ∨
    ∃ r ∈ gestureTable, (gestureStep g kd ku st).gstate = r.next ∧
      (gestureStep g kd ku st).gact = r.action := by
  simp only [gestureStep]
  split
  · exact .inl ⟨rfl, rfl⟩
  split
  · exact .inr (.inl ⟨rfl, rfl⟩)
  split
  · simp only [armedRelease]
    split
    · exact .inr (.inr (.inl rfl))
    · exact .inl ⟨rfl, rfl⟩
  · simp only [walkAndArm]
    cases hf : tableWalk g.gstate kd ku st with
    | none => exact .inr (.inr (.inl rfl))
    | some r => exact .inr (.inr (.inr ⟨r, (tableWalk_some hf).1, rfl, rfl⟩))

end Sys2Proof.Machine
end

