-- ==== Sys2Proof/Laws/Step.lean ====
section
/-! SUPPORT. What a cycle can do, said once: the inversion of a port's work and of `step`, the induction over
steps and over runs, and the rings' canonical form kept. -/

namespace Sys2Proof.Machine

/-- Going on is associative. -/
theorem andThen_assoc (r : Result) (f g : State → Result) :
    andThen (andThen r f) g = andThen r (fun s => andThen (f s) g) := by
  cases r <;> rfl

/-- A port left its state alone, raised Illegal, or ran a command. -/
theorem runPort_cases {p : Port} {c : Option Word} {s t : State} (h : runPort p c s = .next t) :
    t = s ∨ (∃ k, t = raiseIllegal k s) ∨ ∃ i, exec i s = .next t := by
  cases c with
  | none => cases h; exact .inl rfl
  | some w =>
    simp only [runPort, runWord] at h
    split at h
    · exact .inr (.inr ⟨_, h⟩)
    · cases h; exact .inr (.inl ⟨_, rfl⟩)

/-- A step reset the block, or ran the consumer's port and then the producer's; the next pins follow. -/
theorem step_cases {s t : State} (h : step s = .next t) :
    (s.pins.rst = true ∧ t = advanceCycle (resetAction s)) ∨
    (s.pins.rst = false ∧ ∃ u v, runPort .consumer s.pins.ccmd s = .next u ∧
      runPort .producer s.pins.pcmd u = .next v ∧ t = advanceCycle v) := by
  simp only [step, cycle, runCycle] at h
  split at h
  · next hr => cases h; exact .inl ⟨hr, rfl⟩
  · next hr =>
    obtain ⟨v, hv, h⟩ := (andThen_next_iff _ _ _).1 h
    obtain ⟨u, hu, hv⟩ := (andThen_next_iff _ _ _).1 hv
    cases h
    exact .inr ⟨by simpa using hr, u, v, hu, hv, rfl⟩

/-- A property that commands, Illegal, the reset action and the next pins each keep is kept by every step. -/
theorem step_induction (P : State → Prop) (hx : ∀ i s t, P s → exec i s = .next t → P t)
    (hi : ∀ k s, P s → P (raiseIllegal k s)) (ha : ∀ s, P s → P (advanceCycle s))
    (hr : ∀ s, P s → P (resetAction s)) {s t : State} (h : step s = .next t) (h0 : P s) : P t := by
  have hp : ∀ {p c s t}, runPort p c s = .next t → P s → P t := by
    intro p c s t h h0
    rcases runPort_cases h with rfl | ⟨k, rfl⟩ | ⟨i, h⟩
    · exact h0
    · exact hi _ _ h0
    · exact hx _ _ _ h0 h
  rcases step_cases h with ⟨-, rfl⟩ | ⟨-, u, v, hu, hv, rfl⟩
  · exact ha _ (hr _ h0)
  · exact ha _ (hp hv (hp hu h0))

/-- A property that every step keeps is kept by every run. -/
theorem run_induction (P : State → Prop) (hs : ∀ s t, step s = .next t → P s → P t) :
    ∀ (k : Nat) (s t : State), Host.Core.run Sys2Proof.core k s = .next t → P s → P t := by
  intro k
  induction k with
  | zero => intro s t h h0; cases h; exact h0
  | succ k ih =>
    intro s t h h0
    simp only [Host.Core.run] at h
    cases hst : Sys2Proof.core.step s with
    | next u => rw [hst] at h; exact ih u t h (hs s u hst h0)
    | fault r => rw [hst] at h; cases h
    | refused r => rw [hst] at h; cases h

/-- The rings have their canonical form exactly when both have `DEPTH` slots. -/
theorem memoryWf_iff (s : State) :
    s.memoryWf = true ↔ s.ringG.length = s.depth ∧ s.ringX.length = s.depth := by
  simp [State.memoryWf, ringWf]

/-- The rings have their canonical form at reset, at every depth. -/
theorem memoryWf_initial (d : Nat) : (State.initial d).memoryWf = true := by
  simp [memoryWf_iff, State.initial]

/-- The rings have their canonical form in the machine's reset state. -/
theorem memoryWf_reset : State.reset.memoryWf = true :=
  memoryWf_initial _

/-- Every command keeps the rings' canonical form. -/
theorem memoryWf_exec {i : Instr} {s t : State} (h0 : s.memoryWf = true) (h : exec i s = .next t) :
    t.memoryWf = true := by
  rw [memoryWf_iff] at h0 ⊢
  rcases exec_next_cases h with ⟨rfl, rfl⟩ | ⟨rfl, rfl⟩ | ⟨rfl, -, -, rfl⟩ | ⟨rfl, -, -, rfl⟩ | ⟨rfl, -, rfl⟩ |
    ⟨rfl, -, rfl⟩ | ⟨rfl, rfl⟩ | ⟨rfl, rfl⟩ | ⟨rfl, g, -, rfl⟩ | ⟨m, -, rfl⟩
  all_goals try (simpa using h0)
  obtain ⟨v, hv⟩ := commitMap_eq s m
  rw [hv]; simpa using h0

/-- Every step keeps the rings' canonical form. -/
theorem memoryWf_step {s t : State} (h0 : s.memoryWf = true) (h : step s = .next t) : t.memoryWf = true := by
  refine step_induction (fun s => s.memoryWf = true) (fun _ _ _ => memoryWf_exec) (fun _ _ h => h) ?_ ?_ h h0
  · intro s hs
    rw [memoryWf_iff] at hs ⊢
    simpa using hs
  · intro s _
    simpa [memoryWf_iff, resetAction] using (memoryWf_iff _).1 (memoryWf_initial s.depth)

end Sys2Proof.Machine
end

