-- ==== Sys2Proof/Laws/Listing.lean ====
section
/-! SUPPORT. What a listing line with one consumer command can do, and the lines of a canonical poll. -/

namespace Sys2Proof.Machine

/-- A line with a command on the consumer port drives that command alone, and leaves the configuration inputs. -/
theorem linePins_consumer {s : State} {c : ConsumerDrive} {p : Pins}
    (h : s.linePins { consumer := some c } = some p) :
    p.rst = false ∧ p.pcmd = none ∧ p.ccmd = some c.word ∧ p.cfg = s.pins.cfg ∧
      s.operandValue c.d0 = some p.d0 ∧ s.operandValue c.d1 = some p.d1 ∧ s.operandValue c.d2 = some p.d2 ∧
      s.operandValue c.d3 = some p.d3 ∧ s.operandValue c.d4 = some p.d4 ∧ s.operandValue c.d5 = some p.d5 := by
  simp only [State.linePins, State.producerPins] at h
  simp only [Option.map_some, Option.getD_some, Option.getD_none, Option.bind_eq_bind, Option.bind_some,
    Option.bind_eq_some_iff, Option.pure_def, Option.some.injEq] at h
  obtain ⟨d0, h0, d1, h1, d2, h2, d3, h3, d4, h4, d5, h5, rfl⟩ := h
  exact ⟨rfl, rfl, rfl, rfl, h0, h1, h2, h3, h4, h5⟩

/-- A line with a legal command on the consumer port runs that command on the pins it drives, and then the next
pins are there. -/
theorem runLine_consumer {i : Instr} {s : State} {c : ConsumerDrive} {p : Pins}
    (hd : decode .consumer c.word = .legal i) (hp : s.linePins { consumer := some c } = some p) :
    runLine { consumer := some c } s =
      andThen (exec i (s.withPins p)) fun t => .next (advanceCycle t) := by
  obtain ⟨hr, hn, hc, -⟩ := linePins_consumer hp
  simp only [runLine, hp, step, cycle, runCycle, State.withPins_pins, hr, runCommands, hn, hc]
  simp only [runPort, runWord, hd, Bool.false_eq_true, if_false, andThen_of_next, andThen_assoc]

/-- The canonical poll reads channel X exactly when its MAP.EXT will use the expansion port. -/
theorem canonicalPoll_eq (useGesture : Bool) (map : Option PollMap) : canonicalPoll useGesture map =
    pollG ++ (if map = some (.external true) then pollX else []) ++ (if useGesture then [gestureG] else []) ++
      (map.map mapLine).toList := by
  rcases map with - | m
  · rfl
  · cases m <;> first | rfl | (rename_i u; cases u <;> rfl)

end Sys2Proof.Machine
end

