-- ==== Sys2Proof/Laws/PerInstr.lean ====
section
/-! SUPPORT. What is true of each command's word, command by command. -/

namespace Sys2Proof.Laws.OwnPort

/-- The command's word has nothing reserved set, its own port takes it for the command, and the other port
rejects it with cause PORT (30_encoding R71, R74, R75). -/
def Statement (i : Instr) : Prop :=
  fieldRsv (encode i) = 0#9 ∧ decode i.port (encode i) = .legal i ∧
    ((i.port = .consumer ∧ decode .producer (encode i) = .illegal .port) ∨
      (i.port = .producer ∧ decode .consumer (encode i) = .illegal .port))

end Sys2Proof.Laws.OwnPort

namespace Sys2Proof.Laws

/-- The word of `nop`. -/
theorem OwnPort.nop : OwnPort.Statement .nop := by unfold OwnPort.Statement; decide

/-- The word of `sampleG`. -/
theorem OwnPort.sampleG : OwnPort.Statement .sampleG := by unfold OwnPort.Statement; decide

/-- The word of `sampleX`. -/
theorem OwnPort.sampleX : OwnPort.Statement .sampleX := by unfold OwnPort.Statement; decide

/-- The word of `readG`. -/
theorem OwnPort.readG : OwnPort.Statement .readG := by unfold OwnPort.Statement; decide

/-- The word of `readX`. -/
theorem OwnPort.readX : OwnPort.Statement .readX := by unfold OwnPort.Statement; decide

/-- The word of `calcG`. -/
theorem OwnPort.calcG : OwnPort.Statement .calcG := by unfold OwnPort.Statement; decide

/-- The word of `calcX`. -/
theorem OwnPort.calcX : OwnPort.Statement .calcX := by unfold OwnPort.Statement; decide

/-- The word of `gesture`. -/
theorem OwnPort.gesture : OwnPort.Statement .gesture := by unfold OwnPort.Statement; decide

/-- The word of `mapOff`. -/
theorem OwnPort.mapOff : OwnPort.Statement .mapOff := by unfold OwnPort.Statement; decide

/-- The word of `mapInt`. -/
theorem OwnPort.mapInt : OwnPort.Statement .mapInt := by unfold OwnPort.Statement; decide

/-- The word of `mapExt`. -/
theorem OwnPort.mapExt : OwnPort.Statement .mapExt := by unfold OwnPort.Statement; decide

/-- The word of `clrstat`. -/
theorem OwnPort.clrstat : OwnPort.Statement .clrstat := by unfold OwnPort.Statement; decide

end Sys2Proof.Laws
end

