-- ==== Sys2Proof/Tests/Slice0.lean ====
section
/-! SUPPORT. The model's own tests: ill-formed terms refused, every command's word decoded, one step of each command
against the vectors of spec/95_test_vectors.md, and for every statement of Certificates/Slice0/Obligations.lean a
state and operands that meet its hypotheses. -/

namespace Sys2Proof.Tests

open Sys2Proof Sys2Proof.Machine

/-! ### Helpers -/

/-- The next state of an outcome; `none` for a fault or a refusal. -/
def next? (r : Result) : Option State :=
  match r with
  | .next s => some s
  | .fault _ => none
  | .refused _ => none

/-- A state seen through one step of a command, by what a function reads of the state after. -/
def after {α : Type} (i : Instr) (s : State) (f : State → α) : Option α :=
  (next? (exec i s)).map f

/-- The reset state with the configuration inputs of 95_test_vectors.md. -/
def start : State :=
  State.reset.withPins { Pins.quiet with cfg := { baseNote := 36#7, bankNoteBase := 100#7, expEn := true } }

/-- The grid operands driven, and a bank in force. -/
def mapStart (mode : BitVec 2) (b : BankNo) (kd ku st : GridMask) : State :=
  ({ start with lastmode := mode, bank := b }).driveGrid kd ku st

/-- The expansion operands driven beside them. -/
def mapStartX (mode : BitVec 2) (b : BankNo) (kd ku st xkd xku xst : Word) : State :=
  (mapStart mode b kd ku st).withPins
    { (mapStart mode b kd ku st).pins with d3 := xkd, d4 := xku, d5 := xst }

/-- The gesture engine's state and a poll driven. -/
def poll (gs : GStateId) (act : ActionCode) (key kd ku st : GridMask) : State :=
  (start.withGesture gs act key 0#4).driveGrid kd ku st

/-- One cycle with a word on each port. -/
def drivePorts (s : State) (consumer producer : Option Word) : State :=
  s.withPins { s.pins with ccmd := consumer, pcmd := producer }

/-- The grid buses in a state in which every key is both down and up. -/
def crowded : State :=
  start.driveGrid 0xFFFF#16 0xFFFF#16 0#16

/-- What one sees of the event buffer: the count and the first three entries. -/
def events (s : State) : BitVec 5 × Option EvtEntry × Option EvtEntry × Option EvtEntry :=
  (s.evtCnt, s.evt[0]?, s.evt[1]?, s.evt[2]?)

/-- The bank and the mode. -/
def bankMode (s : State) : BankNo × BitVec 2 :=
  (s.bank, s.lastmode)

/-- The gesture registers in the order of 95_test_vectors.md: state, action, result, release key. -/
def gaor (s : State) : GStateId × ActionCode × ActionCode × GridMask :=
  (s.gstate, s.gact, s.gout, s.relkey)

/-! ### Ill-formed terms -/

theorem test_wf_sample_on_consumer : Instr.sampleG.wellFormedOn .consumer = false := by decide

theorem test_wf_read_on_producer : Instr.readX.wellFormedOn .producer = false := by decide

theorem test_wf_depth_bounds :
    depthLegal 0 = false ∧ depthLegal 17 = false ∧ depthLegal 1 = true ∧ depthLegal 16 = true := by decide

theorem test_wf_row_state : (GestureRow.mk 37#6 0#4 .down 0#6 0#4).wellFormed = false := by decide

theorem test_wf_row_next : (GestureRow.mk 0#6 0#4 .down 37#6 0#4).wellFormed = false := by decide

theorem test_wf_row_action : (GestureRow.mk 0#6 0#4 .down 0#6 11#4).wellFormed = false := by decide

theorem test_wf_table_rows : ∀ r ∈ gestureTable, r.wellFormed = true := by decide

theorem test_wf_ring_slot :
    (ObsReg.ringG 10).wellFormed 10 = false ∧ (ObsReg.ringX 4).wellFormed 4 = false := by decide

theorem test_wf_event_entry :
    (ObsReg.evt 19).wellFormed 10 = false ∧ (ObsReg.evt 18).wellFormed 10 = true := by decide

theorem test_wf_operand : (Operand.reg (.evt 19)).wellFormed 10 = false := by decide

theorem test_wf_producer_drive :
    ({ word := 0x1000#16, pd := .reg (.ringG 10) } : ProducerDrive).wellFormed 10 = false := by decide

theorem test_wf_consumer_d0 :
    ({ word := 0x4000#16, d0 := .reg (.ringX 10) } : ConsumerDrive).wellFormed 10 = false := by decide

theorem test_wf_consumer_d1 :
    ({ word := 0x4000#16, d1 := .reg (.ringX 10) } : ConsumerDrive).wellFormed 10 = false := by decide

theorem test_wf_consumer_d2 :
    ({ word := 0x4000#16, d2 := .reg (.ringX 10) } : ConsumerDrive).wellFormed 10 = false := by decide

theorem test_wf_consumer_d3 :
    ({ word := 0x4000#16, d3 := .reg (.ringX 10) } : ConsumerDrive).wellFormed 10 = false := by decide

theorem test_wf_consumer_d4 :
    ({ word := 0x4000#16, d4 := .reg (.ringX 10) } : ConsumerDrive).wellFormed 10 = false := by decide

theorem test_wf_consumer_d5 :
    ({ word := 0x4000#16, d5 := .reg (.ringX 10) } : ConsumerDrive).wellFormed 10 = false := by decide

theorem test_wf_line :
    ({ producer := some { word := 0x1000#16, pd := .reg (.evt 19) } } : Line).wellFormed 10 = false := by decide

/-! ### Words of 30_encoding R74, bit by bit: OP, CH, MODE, RSV -/

theorem test_decode_nop :
    decode .consumer 0b0000000000000000#16 = .legal .nop ∧ decodeTableWord 16 0b0000000000000000 = some .nop := by decide

theorem test_decode_sampleG :
    decode .producer 0b0001000000000000#16 = .legal .sampleG ∧ decodeTableWord 16 0b0001000000000000 = some .sampleG := by decide

theorem test_decode_sampleX :
    decode .producer 0b0001100000000000#16 = .legal .sampleX ∧ decodeTableWord 16 0b0001100000000000 = some .sampleX := by decide

theorem test_decode_readG :
    decode .consumer 0b0010000000000000#16 = .legal .readG ∧ decodeTableWord 16 0b0010000000000000 = some .readG := by decide

theorem test_decode_readX :
    decode .consumer 0b0010100000000000#16 = .legal .readX ∧ decodeTableWord 16 0b0010100000000000 = some .readX := by decide

theorem test_decode_calcG :
    decode .consumer 0b0011000000000000#16 = .legal .calcG ∧ decodeTableWord 16 0b0011000000000000 = some .calcG := by decide

theorem test_decode_calcX :
    decode .consumer 0b0011100000000000#16 = .legal .calcX ∧ decodeTableWord 16 0b0011100000000000 = some .calcX := by decide

theorem test_decode_gesture :
    decode .consumer 0b0100000000000000#16 = .legal .gesture ∧ decodeTableWord 16 0b0100000000000000 = some .gesture := by decide

theorem test_decode_mapOff :
    decode .consumer 0b0101000000000000#16 = .legal .mapOff ∧ decodeTableWord 16 0b0101000000000000 = some .mapOff := by decide

theorem test_decode_mapInt :
    decode .consumer 0b0101001000000000#16 = .legal .mapInt ∧ decodeTableWord 16 0b0101001000000000 = some .mapInt := by decide

theorem test_decode_mapExt :
    decode .consumer 0b0101010000000000#16 = .legal .mapExt ∧ decodeTableWord 16 0b0101010000000000 = some .mapExt := by decide

theorem test_decode_clrstat :
    decode .consumer 0b0110000000000000#16 = .legal .clrstat ∧ decodeTableWord 16 0b0110000000000000 = some .clrstat := by decide

/-! ### Illegal words, vectors E3 to E19 -/

/-- Vectors E3 to E14. -/
theorem test_E3_E14_causes :
    illegalCause .consumer 0x1000#16 = some .port ∧ illegalCause .producer 0x2000#16 = some .port ∧
      illegalCause .producer 0x7000#16 = some .port ∧ illegalCause .consumer 0x7000#16 = some .opcode ∧
      illegalCause .consumer 0xF000#16 = some .opcode ∧ illegalCause .consumer 0x5600#16 = some .mode ∧
      illegalCause .consumer 0x5601#16 = some .mode ∧ illegalCause .consumer 0x5201#16 = some .field ∧
      illegalCause .consumer 0x5800#16 = some .field ∧ illegalCause .consumer 0x4800#16 = some .field ∧
      illegalCause .consumer 0x2200#16 = some .field ∧ illegalCause .consumer 0x1001#16 = some .field := by decide

/-- Vector E17. -/
theorem test_E17_first_cause_kept :
    (next? (andThen (runWord .consumer 0x7000#16 start) (runWord .consumer 0x5600#16))).map (·.status) =
      some 0x05#8 := by decide

/-- Vector E18. -/
theorem test_E18_consumer_first :
    (next? (step (drivePorts start (some 0x7000#16) (some 0x2000#16)))).map (·.status) = some 0x05#8 := by decide

/-- Vector E19. -/
theorem test_E19_clrstat_then_illegal :
    (next? (step (drivePorts (start.withStatus 0x0F#8) (some 0x6000#16) (some 0x2000#16)))).map (·.status) =
      some 0x11#8 := by decide

/-- Vector E20. -/
theorem test_E20_illegal_map :
    (next? (runWord .consumer 0x5600#16 ((start.withMapper 2#2 1#2 start.evt 3#5)))).map
      (fun s => (s.status, s.bank, s.lastmode, s.evtCnt)) = some (0x0D#8, 2#2, 1#2, 3#5) := by decide

/-! ### One step of each command -/

/-- The last slot of a ring of 4 written, and the pointer round to 0 (R100). -/
theorem test_D8_sample_wraps :
    after .sampleG ({ State.initial 4 with ringG := [0xF3#16, 0xF1#16, 0xFF1#16, 0x80F5#16], wpG := 3#4 }.withPins
      { Pins.quiet with pd := 0xFFFF#16 }) (fun s => (s.ringG, s.wpG)) =
      some ([0xF3#16, 0xF1#16, 0xFF1#16, 0xFFFF#16], 0#4) := by decide

/-- Vector C5. -/
theorem test_C5_first_sample :
    (next? (step (drivePorts (start.withPins { start.pins with pd := 0x0001#16 }) none (some 0x1000#16)))).map
      (fun s => (s.ringG[0]?, s.wpG)) = some (some 0x0001#16, 1#4) := by decide

/-- Vector D14. -/
theorem test_D14_sampleX_low_bits :
    after .sampleX (start.withPins { start.pins with pd := 0xABC5#16 }) (fun s => (s.ringX[0]?, s.wpX)) =
      some (some 0x5#4, 1#4) := by decide

/-- Vectors L1-1 and D7. -/
theorem test_D7_read :
    after .readG { State.initial 4 with ringG := [0xF3#16, 0xF1#16, 0xFF1#16, 0x80F5#16] } (·.stateG) =
      some 0x00F1#16 := by decide

/-- Vector D1. -/
theorem test_read_at_reset : after .readG State.reset (·.stateG) = some 0x0000#16 := by decide

/-- Vector D9. -/
theorem test_D9_readX :
    after .readX { State.reset with ringX := List.replicate 10 0xF#4 } (·.stateX) = some 0xF#4 := by decide

/-- Vector L1-2. -/
theorem test_L1_2_calc :
    after .calcG { State.reset with prevG := 0x0003#16, stateG := 0x0006#16 } (fun s => (s.kdG, s.kuG, s.prevG)) =
      some (0x0004#16, 0x0001#16, 0x0006#16) := by decide

/-- Vector D12. -/
theorem test_D12_calc_all_up :
    after .calcG { State.reset with prevG := 0xFFFF#16 } (fun s => (s.kdG, s.kuG, s.prevG)) =
      some (0x0000#16, 0xFFFF#16, 0x0000#16) := by decide

/-- Program P4, cycle 14. -/
theorem test_P4_calcX :
    after .calcX { State.reset with prevX := 0x4#4, stateX := 0x1#4 } (fun s => (s.kdX, s.kuX, s.prevX)) =
      some (0x1#4, 0x4#4, 0x1#4) := by decide

/-- Vector G16. -/
theorem test_G16_lowest_release_key :
    after .gesture (poll 3#6 0#4 0#16 0x8008#16 0#16 0xF008#16) gaor =
      some (4#6, 1#4, 1#4, 0x0008#16) := by decide

/-- Vector G25. -/
theorem test_G25_chord_preempts :
    after .gesture (poll 4#6 1#4 0x8000#16 0x0F00#16 0xF000#16 0x0F00#16) gaor =
      some (4#6, 3#4, 3#4, 0x0100#16) := by decide

/-- Vector M25: [off(44), on(44)]. -/
theorem test_M25_mapOff_down_and_up :
    after .mapOff (mapStart 0#2 0#2 0x0010#16 0x0010#16 0x0010#16) events =
      some (2#5, some 0x02C#9, some 0x12C#9, some 0x000#9) := by decide

/-- Vector M19. -/
theorem test_M19_mapOff_out_of_range :
    after .mapOff ((start.withPins { start.pins with cfg := { start.pins.cfg with baseNote := 127#7 } }).driveGrid
      0x0001#16 0#16 0x0001#16) (fun s => (s.evt[0]?, s.status)) = some (some 0x18B#9, 0x02#8) := by decide

/-- Vectors L1-8 and M5: [off(100), on(101)], bank 1. -/
theorem test_M5_mapInt_forced_off :
    after .mapInt (mapStart 1#2 0#2 0x0002#16 0#16 0x0003#16) (fun s => (events s, bankMode s)) =
      some ((2#5, some 0x064#9, some 0x165#9, some 0x000#9), (1#2, 1#2)) := by decide

/-- Vector M14: [on(101), on(56)]. -/
theorem test_M14_mapInt_new_bank :
    after .mapInt (mapStart 0#2 0#2 0x0012#16 0#16 0x0012#16) (fun s => (events s, bankMode s)) =
      some ((2#5, some 0x165#9, some 0x138#9, some 0x000#9), (1#2, 1#2)) := by decide

/-- Program P4, cycle 8: [on(102), on(68)]. -/
theorem test_P4_mapExt :
    after .mapExt (mapStartX 0#2 0#2 0x1000#16 0#16 0x1000#16 0x4#16 0#16 0x4#16)
      (fun s => (events s, bankMode s)) =
      some ((2#5, some 0x166#9, some 0x144#9, some 0x000#9), (2#2, 2#2)) := by decide

/-- Vector M23: [off(101), off(101), on(100), … off(39)]. -/
theorem test_M23_mapExt_nineteen :
    after .mapExt (mapStartX 2#2 1#2 0#16 0xFFFF#16 0#16 0x1#16 0x2#16 0x2#16)
      (fun s => (events s, s.evt[18]?, bankMode s)) =
      some ((19#5, some 0x065#9, some 0x065#9, some 0x164#9), some 0x027#9, (0#2, 2#2)) := by decide

/-- Vector C1. -/
theorem test_C1_nop :
    after .nop { State.reset with gstate := 5#6, bank := 2#2 } id =
      some { State.reset with gstate := 5#6, bank := 2#2 } := by decide

/-- Vectors C2 and C3. -/
theorem test_C3_clrstat :
    after .clrstat ((start.withMapper 1#2 1#2 start.evt 2#5).withStatus 0x13#8) (fun s => (s.status, s.bank, s.evtCnt)) =
      some (0x00#8, 1#2, 2#5) := by decide

/-- Vector C4. -/
theorem test_C4_reset_cycle :
    (next? (step ((mapStart 1#2 2#2 0x0001#16 0#16 0x0001#16).withPins
      { start.pins with rst := true, ccmd := some 0x5000#16, pcmd := some 0x1000#16, pd := 0xFFFF#16 }))).map
      (fun s => (s.evtCnt, s.ringG, s.wpG, s.bank)) = some (0#5, List.replicate 10 0#16, 0#4, 0#2) := by decide

/-- Vector D13. -/
theorem test_D13_read_and_sample :
    (next? (step (drivePorts { start with ringG := List.replicate 10 0x0010#16 } (some 0x2000#16) (some 0x1000#16)))).map
      (fun s => (s.stateG, s.ringG[0]?, s.wpG)) = some (0x0010#16, some 0x0000#16, 1#4) := by decide

/-! ### The canonical poll (70_reset R255, 30_encoding R82) -/

/-- The consumer words of a poll's lines. -/
def pollWords (useGesture : Bool) (map : Option PollMap) : List Word :=
  ((canonicalPoll useGesture map).filterMap (·.consumer)).map (·.word)

theorem test_poll_external_using_expansion :
    pollWords true (some (.external true)) =
      [0x2000#16, 0x3000#16, 0x2800#16, 0x3800#16, 0x4000#16, 0x5400#16] := by decide

theorem test_poll_external_without_expansion :
    pollWords true (some (.external false)) =
      [0x2000#16, 0x3000#16, 0x4000#16, 0x5400#16] := by decide

theorem test_poll_external_without_expansion_operands :
    (mapExtG.consumer.map fun c => (c.d2, c.d3, c.d4, c.d5)) =
      some (.reg .stateG, .lit 0#16, .lit 0#16, .lit 0#16) := by decide

theorem test_poll_internal : pollWords false (some .internal) = [0x2000#16, 0x3000#16, 0x5200#16] := by decide

/-! ### Hypotheses met

One theorem for every statement that has hypotheses, named after it: a state and operands that meet them together,
one for each clause, at a boundary value of a range. -/
/-- An outcome that is seen to be a next state is one. -/
theorem next_of {r : Result} (h : (next? r).isSome = true) : ∃ t, r = .next t := by
  cases r with
  | next t => exact ⟨t, rfl⟩
  | fault e => cases h
  | refused e => cases h

theorem witness_WrongPortRaisesPortCause :
    ((Port.consumer = .consumer ∧ (0x1800#16 = 0x1000#16 ∨ 0x1800#16 = 0x1800#16)) ∧
      start.illegalFlag = false) ∧
    (Port.producer = .producer ∧ 0x1001#16 ≠ 0x1000#16 ∧ 0x1001#16 ≠ 0x1800#16) ∧
      (start.withStatus 0x05#8).illegalFlag = true := by decide

theorem witness_IllegalChangesStatusOnly :
    decode .consumer 0x7000#16 = .illegal .opcode ∧ decode .consumer 0x0001#16 = .illegal .field ∧
    decode .consumer 0x5600#16 = .illegal .mode ∧ decode .producer 0x0000#16 = .illegal .port ∧
    (∃ t, (drivePorts start (some 0x7000#16) (some 0x1000#16)).pins.ccmd = some 0x7000#16 ∧
      runWord .consumer 0x7000#16 (drivePorts start (some 0x7000#16) (some 0x1000#16)) = .next t) ∧
    ∃ t, (drivePorts start (some 0x2000#16) (some 0x2000#16)).pins.pcmd = some 0x2000#16 ∧
      decode .producer 0x2000#16 = .illegal .port ∧
      runPort .consumer (some 0x2000#16) (drivePorts start (some 0x2000#16) (some 0x2000#16)) = .next t :=
  ⟨by decide, by decide, by decide, by decide, ⟨_, by decide, rfl⟩, ⟨_, by decide, by decide, rfl⟩⟩

theorem witness_StatusFieldsAreStickyAndInert :
    (∃ t, runWord .consumer 0x5000#16 (start.withStatus 0x0F#8) = .next t) ∧
    ¬(Port.consumer = .consumer ∧ 0x5000#16 = 0x6000#16) ∧
    (start.withStatus 0x0F#8).illegalFlag = true ∧ (start.withStatus 0x0F#8).noteOor = true ∧
    (∃ t, exec .mapOff (start.withStatus 0x0F#8) = .next t) ∧ Instr.mapOff ≠ .clrstat :=
  ⟨next_of (by decide), by decide, by decide, by decide, next_of (by decide), by decide⟩

theorem witness_ConsumerCauseIsRecorded :
    let s := drivePorts start (some 0x7000#16) (some 0x2000#16)
    s.pins.rst = false ∧ s.pins.ccmd = some 0x7000#16 ∧ s.pins.pcmd = some 0x2000#16 ∧
      decode .consumer 0x7000#16 = .illegal .opcode ∧ decode .producer 0x2000#16 = .illegal .port ∧
      s.illegalFlag = false := by decide

theorem witness_NopChangesNothing :
    ((0x0001#16).toNat < 4096 ∧ 0x0001#16 ≠ 0#16) ∧ (0x0FFF#16).toNat < 4096 ∧ 0x0FFF#16 ≠ 0#16 := by decide

theorem witness_ClrstatClearsStatus :
    (0x6000 < (0x6001#16).toNat ∧ (0x6001#16).toNat < 0x7000) ∧
    (0x6000 < (0x6FFF#16).toNat ∧ (0x6FFF#16).toNat < 0x7000) ∧
    let s := drivePorts start (some 0x6000#16) (some 0x0000#16)
    s.pins.rst = false ∧ s.pins.ccmd = some 0x6000#16 ∧ s.pins.pcmd = some 0x0000#16 ∧
      0x0000#16 ≠ 0x1000#16 ∧ 0x0000#16 ≠ 0x1800#16 := by decide

/-- Depth 1 with its only slot, and depth 16 at its last slot. -/
theorem witness_SampleWritesOneSlot :
    (depthLegal (State.initial 1).depth = true ∧ (State.initial 1).ringG.length = (State.initial 1).depth ∧
      (State.initial 1).wpG.toNat < (State.initial 1).depth) ∧
    (depthLegal (State.initial 1).depth = true ∧ (State.initial 1).ringX.length = (State.initial 1).depth ∧
      (State.initial 1).wpX.toNat < (State.initial 1).depth) ∧
    let s := { State.initial 16 with wpG := 15#4, wpX := 15#4 }
    depthLegal s.depth = true ∧ s.ringG.length = s.depth ∧ s.wpG.toNat < s.depth ∧ s.ringX.length = s.depth ∧
      s.wpX.toNat < s.depth := by decide

/-- A ring short of one slot, and pointers at `DEPTH`. -/
theorem witness_MissingSlotStops :
    let s := { State.reset with ringG := List.replicate 9 0#16, ringX := List.replicate 9 0#4 }
    let u := { State.reset with wpG := 10#4, wpX := 10#4 }
    s.ringG.length ≠ s.depth ∧ s.ringX.length ≠ s.depth ∧ u.depth ≤ u.wpG.toNat ∧ u.depth ≤ u.wpX.toNat := by
  decide

theorem witness_ReadIsTheAndOfAllSlots :
    (State.initial 1).ringG.length = (State.initial 1).depth ∧
    (State.initial 16).ringX.length = (State.initial 16).depth := by decide

theorem witness_CalcIsIdempotent :
    (∃ t u : State, exec .calcG start = .next t ∧ u.stateG = t.stateG ∧ u.prevG = t.prevG) ∧
    (∃ t u : State, exec .calcX start = .next t ∧ u.stateX = t.stateX ∧ u.prevX = t.prevX) ∧
    ∃ t, exec .mapOff start = .next t ∧ Instr.mapOff ≠ .readG ∧ Instr.mapOff ≠ .calcG ∧
      Instr.mapOff ≠ .readX ∧ Instr.mapOff ≠ .calcX :=
  ⟨⟨_, _, rfl, rfl, rfl⟩, ⟨_, _, rfl, rfl, rfl⟩, ⟨_, rfl, by decide, by decide, by decide, by decide⟩⟩

theorem witness_EdgeSetLaws :
    (∃ t, exec .calcG { start with prevG := 0x0003#16, stateG := 0x0006#16 } = .next t ∧ t.kdG ≠ 0#16 ∧
      t.kuG ≠ 0#16) ∧
    ∃ t, exec .calcX { start with prevX := 0x3#4, stateX := 0x6#4 } = .next t ∧ t.kdX ≠ 0#4 ∧ t.kuX ≠ 0#4 :=
  ⟨⟨_, rfl, by decide, by decide⟩, ⟨_, rfl, by decide, by decide⟩⟩

theorem witness_ChannelsAreIndependent :
    (∃ t, exec .sampleG start = .next t) ∧ (∃ t, exec .readG start = .next t) ∧
    (∃ t, exec .calcG start = .next t) ∧ (∃ t, exec .sampleX start = .next t) ∧
    (∃ t, exec .readX start = .next t) ∧ ∃ t, exec .calcX start = .next t :=
  ⟨next_of (by decide), next_of (by decide), next_of (by decide), next_of (by decide), next_of (by decide), next_of (by decide)⟩

theorem witness_RingHoldsTheLastWords : depthLegal 1 = true ∧ depthLegal 16 = true := by decide

/-- The first and the last key of each channel, at the least and the greatest depth. -/
theorem witness_PressNeedsFullWindow :
    (depthLegal 1 = true ∧ 0 < 16 ∧ 0 < 4) ∧ depthLegal 16 = true ∧ 15 < 16 ∧ 3 < 4 := by decide

theorem witness_GStateStaysAStateId :
    (poll 36#6 0#4 0#16 0x0400#16 0#16 0x0400#16).gstate.toNat ≤ 36 ∧
    ∃ t, exec .gesture (poll 36#6 0#4 0#16 0x0400#16 0#16 0x0400#16) = .next t :=
  ⟨by decide, next_of (by decide)⟩

/-- Armed, and with the chord held. -/
theorem witness_NoEdgeOnlyClearsGout :
    (poll 4#6 1#4 0x8000#16 0#16 0#16 0x0F00#16).opKd = 0#16 ∧
    (poll 4#6 1#4 0x8000#16 0#16 0#16 0x0F00#16).opKu = 0#16 := by decide

/-- The chord completed by a keydown, and by a keyup alone. -/
theorem witness_ChordArmsB :
    (HasEdge (poll 0#6 0#4 0#16 0x0400#16 0#16 0x0F00#16) ∧
      (poll 0#6 0#4 0#16 0x0400#16 0#16 0x0F00#16).opSt = 0x0F00#16 ∧
      (poll 0#6 0#4 0#16 0x0400#16 0#16 0x0F00#16).gact ≠ 3#4) ∧
    HasEdge (poll 1#6 4#4 0#16 0#16 0x1000#16 0x0F00#16) ∧
      (poll 1#6 4#4 0#16 0#16 0x1000#16 0x0F00#16).opSt = 0x0F00#16 ∧
      (poll 1#6 4#4 0#16 0#16 0x1000#16 0x0F00#16).gact ≠ 3#4 := by
  unfold HasEdge; decide

/-- Each of the five DOWN actions, its release key released and held; B_DOWN also with the chord held. -/
theorem witness_ArmedReleaseCheck :
    (∀ a ∈ [1#4, 3#4, 5#4, 7#4, 9#4],
      let s := poll 4#6 a 0x8000#16 0#16 0x0001#16 0x0000#16
      HasEdge s ∧ ¬(s.opSt = 0x0F00#16 ∧ s.gact ≠ 3#4) ∧ s.gact ∈ [1#4, 3#4, 5#4, 7#4, 9#4]) ∧
    (∀ a ∈ [1#4, 3#4, 5#4, 7#4, 9#4],
      let s := poll 4#6 a 0x8000#16 0#16 0x0001#16 0x8000#16
      HasEdge s ∧ ¬(s.opSt = 0x0F00#16 ∧ s.gact ≠ 3#4) ∧ s.gact ∈ [1#4, 3#4, 5#4, 7#4, 9#4]) ∧
    let s := poll 0#6 3#4 0x0100#16 0x0100#16 0#16 0x0F00#16
    HasEdge s ∧ ¬(s.opSt = 0x0F00#16 ∧ s.gact ≠ 3#4) ∧ s.gact ∈ [1#4, 3#4, 5#4, 7#4, 9#4] := by
  unfold HasEdge; decide +kernel

/-- The first row of the table taken. -/
theorem witness_WalkTakesFirstMatch_first_row :
    let s := poll 0#6 0#4 0#16 0x1200#16 0#16 0x1200#16
    HasEdge s ∧ s.opSt ≠ 0x0F00#16 ∧ s.gact ∉ [1#4, 3#4, 5#4, 7#4, 9#4] ∧
      gestureTable[0]? = some ⟨0#6, 12#4, .down, 1#6, 0#4⟩ ∧ s.gstate = 0#6 ∧ s.opKd.getLsbD 12 = true := by
  unfold HasEdge; decide

/-- A row taken past an earlier row of the same state, and its action armed. -/
theorem witness_WalkTakesFirstMatch_later_row :
    let s := poll 3#6 2#4 0#16 0x8008#16 0#16 0xF008#16
    HasEdge s ∧ s.opSt ≠ 0x0F00#16 ∧ s.gact ∉ [1#4, 3#4, 5#4, 7#4, 9#4] ∧
      gestureTable[6]? = some ⟨3#6, 15#4, .down, 4#6, 1#4⟩ ∧ s.gstate = 3#6 ∧ s.opKd.getLsbD 15 = true ∧
      ∀ q ∈ gestureTable.take 6, q.state ≠ s.gstate := by
  unfold HasEdge; decide +kernel

/-- No row of the state matches. -/
theorem witness_WalkTakesFirstMatch_no_row :
    let s := poll 2#6 0#4 0#16 0x0020#16 0#16 0x3020#16
    HasEdge s ∧ s.opSt ≠ 0x0F00#16 ∧ s.gact ∉ [1#4, 3#4, 5#4, 7#4, 9#4] ∧
      ∀ r ∈ gestureTable, r.state = s.gstate →
        (match r.kind with | .down => s.opKd | .up => s.opKu | .state => s.opSt).getLsbD r.key.toNat = false := by
  unfold HasEdge; decide +kernel

theorem witness_EmptyReleaseKeyReleasesAtOnce :
    (let s := poll 0#6 0#4 0#16 0#16 0x1000#16 0x0F00#16
     s.opKd = 0#16 ∧ s.opKu ≠ 0#16 ∧ s.opSt = 0x0F00#16 ∧ s.gact ≠ 3#4) ∧
    let s := poll 0#6 3#4 0#16 0#16 0x0100#16 0x0E00#16
    HasEdge s ∧ s.gact = 3#4 ∧ s.relkey = 0#16 := by
  unfold HasEdge; decide

/-- A run of no step from reset, unarmed, in which the walk takes a row. -/
theorem witness_ReleaseRowsNeverFire :
    (∃ t, Host.Core.run Sys2Proof.core 0 (((State.initial 1).withPins Pins.quiet).withUpcoming []) = .next t ∧
      t.gact ∉ [1#4, 3#4, 5#4, 7#4, 9#4] ∧
      tableWalk t.gstate 0x1000#16 0#16 0#16 = some ⟨0#6, 12#4, .down, 1#6, 0#4⟩) :=
  ⟨_, rfl, by decide, by decide⟩

/-- A run of four steps from reset, combo A's four keydowns driven, to state 4. -/
theorem witness_ReleaseRowsNeverFire_armed :
    let q := { Pins.quiet with ccmd := some 0x4000#16 }
    (next? (Host.Core.run Sys2Proof.core 4 (((State.initial 1).withPins { q with d0 := 0x1000#16 }).withUpcoming
      [{ q with d0 := 0x2000#16 }, { q with d0 := 0x4000#16 }, { q with d0 := 0x8000#16 }]))).map
      (fun t => (t.gstate, t.gact)) = some (4#6, 1#4) := by decide

theorem witness_CombosAreRecognised :
    (let s := poll 0#6 2#4 0#16 0x0400#16 0#16 0x0F00#16
     HasEdge s ∧ s.opSt = 0x0F00#16 ∧ s.gact ≠ 3#4 ∧ s.gstate = 0#6 ∧ s.gact ∉ [1#4, 3#4, 5#4, 7#4, 9#4]) ∧
    (0x0400#16 : GridMask) ≠ 0#16 ∧ 0x0B00#16 &&& 0x0400#16 = (0#16 : GridMask) ∧
    (∀ n : Nat, (fun _ => 0x7000#16 : Nat → GridMask) n ≠ 0x0F00#16) ∧
    0x7000#16 ≠ (0x0F00#16 : GridMask) ∧ (0x7000#16).getLsbD 15 = false := by
  refine ⟨?_, by decide, by decide, fun _ => ?_, by decide, by decide⟩
  · unfold HasEdge; decide
  · exact (by decide : (0x7000#16 : GridMask) ≠ 0x0F00#16)

theorem witness_ChordPreemptsArmedAction :
    (let s := poll 4#6 9#4 0x8000#16 0x0F00#16 0xF000#16 0x0F00#16
     HasEdge s ∧ s.gact ∈ [1#4, 5#4, 7#4, 9#4] ∧ s.opSt = 0x0F00#16) ∧
    (poll 0#6 3#4 0x0100#16 0#16 0x0100#16 0x0E00#16).gact = 3#4 ∧
    ∃ t, exec .gesture (poll 0#6 3#4 0x0100#16 0#16 0x0100#16 0x0E00#16) = .next t :=
  ⟨by unfold HasEdge; decide, by decide, next_of (by decide)⟩

theorem witness_ChordDoesNotRepeat :
    let s := poll 0#6 3#4 0x0400#16 0x0100#16 0#16 0x0F00#16
    s.gact = 3#4 ∧ s.opSt = 0x0F00#16 ∧ s.opSt &&& s.relkey ≠ 0#16 := by decide

theorem witness_AbortingEdgeIsConsumed :
    let s := poll 9#6 0#4 0#16 0x0200#16 0#16 0x0300#16
    s.gstate = 9#6 ∧ s.gact = 0#4 ∧ s.opKd = 0x0200#16 ∧ s.opKu = 0#16 ∧ s.opSt ≠ 0x0F00#16 := by decide

theorem witness_NoteTableAndLayout : (0 < 4 ∧ 0 < 4) ∧ 3 < 4 ∧ 3 < 4 := by decide

/-- No bank-select keydown keeps the bank, in Internal mode. -/
theorem witness_MapIntEvents_no_keydown :
    let s := mapStart 1#2 3#2 0xFFF0#16 0#16 0xFFFF#16
    0x0#4 = BitVec.ofNat 4 (s.pins.d0.toNat % 16) ∧ 0x0#4 = BitVec.ofNat 4 (s.pins.d1.toNat % 16) ∧
      0xF#4 = BitVec.ofNat 4 (s.pins.d2.toNat % 16) ∧ 3#2 = (if s.lastmode = 1#2 then s.bank else 0#2) ∧
      BankInForce 0x0#4 3#2 3#2 := by
  unfold BankInForce LowestBit; decide

/-- Two bank-select keydowns on a mode entry: the lowest is taken. -/
theorem witness_MapIntEvents_keydown :
    let s := mapStart 2#2 3#2 0x0006#16 0x0001#16 0x0006#16
    0x6#4 = BitVec.ofNat 4 (s.pins.d0.toNat % 16) ∧ 0x1#4 = BitVec.ofNat 4 (s.pins.d1.toNat % 16) ∧
      0x6#4 = BitVec.ofNat 4 (s.pins.d2.toNat % 16) ∧ 0#2 = (if s.lastmode = 1#2 then s.bank else 0#2) ∧
      BankInForce 0x6#4 0#2 1#2 := by
  unfold BankInForce LowestBit; decide

/-- The expansion port enabled, the highest pin pressed alone. -/
theorem witness_MapExtEvents_enabled :
    let s := mapStartX 2#2 1#2 0#16 0xFFFF#16 0#16 0xFFF8#16 0x0002#16 0x000A#16
    s.pins.cfg.expEn = true ∧
      0x8#4 = (if s.pins.cfg.expEn then BitVec.ofNat 4 (s.pins.d3.toNat % 16) else 0#4) ∧
      0x2#4 = (if s.pins.cfg.expEn then BitVec.ofNat 4 (s.pins.d4.toNat % 16) else 0#4) ∧
      0xA#4 = (if s.pins.cfg.expEn then BitVec.ofNat 4 (s.pins.d5.toNat % 16) else 0#4) ∧
      1#2 = (if s.lastmode = 2#2 then s.bank else 0#2) ∧ BankInForce 0x8#4 1#2 3#2 := by
  unfold BankInForce LowestBit; decide

/-- The expansion port not enabled, its pins pressed. -/
theorem witness_MapExtEvents_disabled :
    let s := (mapStartX 2#2 1#2 0#16 0#16 0#16 0xF#16 0xF#16 0xF#16).withPins { Pins.quiet with d3 := 0xF#16 }
    s.pins.cfg.expEn = false ∧
      0x0#4 = (if s.pins.cfg.expEn then BitVec.ofNat 4 (s.pins.d3.toNat % 16) else 0#4) ∧
      0x0#4 = (if s.pins.cfg.expEn then BitVec.ofNat 4 (s.pins.d4.toNat % 16) else 0#4) ∧
      0x0#4 = (if s.pins.cfg.expEn then BitVec.ofNat 4 (s.pins.d5.toNat % 16) else 0#4) ∧
      1#2 = (if s.lastmode = 2#2 then s.bank else 0#2) ∧ BankInForce 0x0#4 1#2 1#2 := by
  unfold BankInForce LowestBit; decide

theorem witness_ModeEntryStartsAtBankZero :
    (Instr.mapInt, 1#2) ∈ [(Instr.mapOff, 0#2), (.mapInt, 1#2), (.mapExt, 2#2)] ∧
    (mapStart 2#2 2#2 0#16 0#16 0#16).lastmode ≠ 1#2 ∧
    (∃ t, exec .mapInt (mapStart 2#2 2#2 0#16 0#16 0#16) = .next t) ∧
    let s := mapStart 2#2 2#2 0#16 0#16 0#16
    s.pins.d0 = 0#16 ∧ s.pins.d1 = 0#16 ∧ s.pins.d3 = 0#16 ∧ s.pins.d4 = 0#16 :=
  ⟨by decide, by decide, next_of (by decide), by decide⟩

/-- A forced note-off, and the active bank selected again. -/
theorem witness_BankKeydownSelectsLowest :
    (let s := mapStart 1#2 0#2 0x000A#16 0#16 0x000B#16
     s.lastmode = 1#2 ∧ LowestBit s.pins.d0 (1#2).toNat ∧ s.pins.d1 = 0#16 ∧
       (1#2 ≠ s.bank ∧ s.pins.d2.getLsbD s.bank.toNat = true)) ∧
    let s := mapStart 1#2 3#2 0x0008#16 0#16 0x0008#16
    s.lastmode = 1#2 ∧ LowestBit s.pins.d0 (3#2).toNat ∧ s.pins.d1 = 0#16 ∧
      ¬(3#2 ≠ s.bank ∧ s.pins.d2.getLsbD s.bank.toNat = true) := by
  unfold LowestBit; decide

theorem witness_OnlyMapWritesTheBuffer :
    (Instr.mapExt, BankMode.external) ∈ [(Instr.mapOff, BankMode.off), (.mapInt, .internal), (.mapExt, .external)] ∧
    (∃ t, exec .mapExt start = .next t) ∧ Instr.gesture ∉ [Instr.mapOff, .mapInt, .mapExt] ∧
    ∃ t, exec .gesture start = .next t :=
  ⟨by decide, next_of (by decide), by decide, next_of (by decide)⟩

/-- Every key with one edge, the expansion pins consistent, and a mode's every MAP answering. -/
theorem witness_EventCountBound :
    let s := mapStartX 2#2 1#2 0x00FF#16 0xFF00#16 0#16 0x1#16 0x2#16 0x1#16
    s.pins.d0 &&& s.pins.d1 = 0#16 ∧ s.pins.d4 &&& s.pins.d5 = 0#16 ∧ (∃ t, exec .mapOff s = .next t) ∧
      (∃ t, exec .mapInt s = .next t) ∧ ∃ t, exec .mapExt s = .next t :=
  ⟨by decide, by decide, next_of (by decide), next_of (by decide), next_of (by decide)⟩

/-- An event at the greatest note: base 127, bank 3, stride 16, offset 15. -/
theorem witness_NotesFitEightBits :
    let s := (mapStartX 2#2 3#2 0x0008#16 0#16 0#16 0#16 0#16 0#16).withPins
      { Pins.quiet with d0 := 0x0008#16, cfg := { baseNote := 127#7, bankNoteBase := 0#7, expEn := true } }
    ⟨true, 190⟩ ∈ s.mapEvents .external := by decide

/-- Notes 127 and 128 side by side. -/
theorem witness_NoteOorIsSticky :
    let s := (mapStart 0#2 0#2 0#16 0#16 0#16).withPins
      { Pins.quiet with d0 := 0x000C#16, cfg := { baseNote := 113#7, bankNoteBase := 0#7, expEn := true } }
    (Instr.mapOff, BankMode.off) ∈ [(Instr.mapOff, BankMode.off), (.mapInt, .internal), (.mapExt, .external)] ∧
      (∃ t, exec .mapOff s = .next t) ∧ s.noteOor = false ∧ (s.mapEvents .off)[0]? = some ⟨true, 127⟩ ∧
      (s.mapEvents .off)[1]? = some ⟨true, 128⟩ :=
  ⟨by decide, next_of (by decide), by decide, by decide, by decide⟩

/-- Buses that differ in every unused bit of a MAP.EXT, and of a SAMPLE.X. -/
theorem witness_UnusedBusBitsAreIgnored :
    (let s := mapStartX 2#2 1#2 0x0010#16 0#16 0x0010#16 0x0008#16 0x0002#16 0x0008#16
     let q := { s.pins with pd := 0xFFFF#16, d3 := 0xFFF8#16, d4 := 0xFFF2#16, d5 := 0xFFF8#16 }
     (∃ t, exec .mapExt s = .next t) ∧ q.d0 = s.pins.d0 ∧ q.d1 = s.pins.d1 ∧ q.d2 = s.pins.d2 ∧
       q.d3.toNat % 16 = s.pins.d3.toNat % 16 ∧ q.d4.toNat % 16 = s.pins.d4.toNat % 16 ∧
       q.d5.toNat % 16 = s.pins.d5.toNat % 16 ∧ q.cfg = s.pins.cfg) ∧
    (∃ t, exec .sampleX start = .next t) ∧ (0xABC0#16).toNat % 16 = start.pins.pd.toNat % 16 ∧
    ∃ t, exec .sampleG start = .next t :=
  ⟨⟨next_of (by decide), by decide⟩, next_of (by decide), by decide, next_of (by decide)⟩

theorem witness_MapperAndGestureAreIndependent :
    Instr.mapInt ∈ [Instr.mapOff, .mapInt, .mapExt] ∧ (∃ t, exec .mapInt start = .next t) ∧
    ∃ t, exec .gesture start = .next t :=
  ⟨by decide, next_of (by decide), next_of (by decide)⟩

theorem witness_NoWireFromDebouncer :
    Instr.mapExt ∈ [Instr.gesture, .mapOff, .mapInt, .mapExt] ∧ ∃ t, exec .mapExt start = .next t :=
  ⟨by decide, next_of (by decide)⟩

/-- Sixteen keys down and up at once: exactly 32 events. -/
theorem witness_UncountableMapDrawsFreeValue :
    (Instr.mapOff, BankMode.off) ∈ [(Instr.mapOff, BankMode.off), (.mapExt, .external)] ∧
    (crowded.mapEvents .off).length = 32 ∧
    (Instr.mapExt, BankMode.external) ∈ [(Instr.mapOff, BankMode.off), (.mapExt, .external)] ∧
    (crowded.mapEvents .external).length = 32 ∧
    (Instr.mapInt, BankMode.internal) ∈ [(Instr.mapOff, BankMode.off), (.mapInt, .internal), (.mapExt, .external)] ∧
    (crowded.mapEvents .internal).length < 32 := by decide

/-- The command that draws the free value answers, whatever it draws. -/
theorem witness_UncountableMapDrawsFreeValue_answers : ∃ t, exec .mapOff crowded = .next t :=
  next_of (by decide)

theorem witness_ResetCycleDiscardsCommands :
    (start.withPins { start.pins with rst := true, ccmd := some 0x5000#16, pcmd := some 0x1000#16 }).pins.rst =
      true := by decide

/-- Both ports, one port, the other port, and neither. -/
theorem witness_StepRunsConsumerThenProducer :
    let both := drivePorts start (some 0x2000#16) (some 0x1000#16)
    let consumer := drivePorts start (some 0x4000#16) none
    let producer := drivePorts start none (some 0x1800#16)
    (both.pins.rst = false ∧ both.pins.ccmd = some 0x2000#16 ∧ both.pins.pcmd = some 0x1000#16) ∧
    (consumer.pins.rst = false ∧ consumer.pins.ccmd = some 0x4000#16 ∧ consumer.pins.pcmd = none) ∧
    (producer.pins.rst = false ∧ producer.pins.ccmd = none ∧ producer.pins.pcmd = some 0x1800#16) ∧
    (start.pins.rst = false ∧ start.pins.ccmd = none ∧ start.pins.pcmd = none) ∧
    decode .consumer 0x2000#16 = .legal .readG ∧ decode .producer 0x1000#16 = .legal .sampleG ∧
    decode .consumer 0x4000#16 = .legal .gesture ∧ decode .producer 0x1800#16 = .legal .sampleX := by decide

/-- With pins to come, and with none. -/
theorem witness_StepTakesUpNextPins :
    (∃ t, step start = .next t) ∧ ∃ t, step (start.withUpcoming [{ start.pins with rst := true }]) = .next t :=
  ⟨next_of (by decide), next_of (by decide)⟩

theorem witness_ReadSeesRingBeforeSample :
    (let s := drivePorts { start with wpG := 9#4 } (some 0x2000#16) (some 0x1000#16)
     s.pins.rst = false ∧ s.pins.ccmd = some 0x2000#16 ∧ s.pins.pcmd = some 0x1000#16 ∧
       s.ringG.length = s.depth ∧ s.wpG.toNat < s.depth) ∧
    let s := drivePorts { start with wpX := 9#4 } (some 0x2800#16) (some 0x1800#16)
    s.pins.rst = false ∧ s.pins.ccmd = some 0x2800#16 ∧ s.pins.pcmd = some 0x1800#16 ∧
      s.ringX.length = s.depth ∧ s.wpX.toNat < s.depth := by decide

theorem witness_DepthAndInputsAreNeverWritten :
    (∃ t, step start = .next t) ∧ ∃ t, exec .clrstat start = .next t :=
  ⟨next_of (by decide), next_of (by decide)⟩

/-- Two states that differ only in their pins show the same outputs. -/
theorem witness_OutputsShowEveryRegister :
    start.depth = State.reset.depth ∧ StatusInv start ∧ StatusInv State.reset ∧
    ∀ r, start.observe r = State.reset.observe r :=
  ⟨rfl, ⟨by decide, by decide, by decide⟩, ⟨by decide, by decide, by decide⟩, fun r => by cases r <;> rfl⟩

theorem witness_InvHoldsAtReset : depthLegal 1 = true ∧ depthLegal 16 = true := by decide

/-- A state with the invariant that is not the reset state: a press reported, combo A armed, bank 3 of External
mode, one event, a recorded illegal command, and both ports driven. -/
def busy : State :=
  drivePorts { start with ringG := List.replicate 10 0x8000#16, wpG := 9#4, stateG := 0x8000#16, prevG := 0x8000#16,
                          kdG := 0x8000#16, gstate := 4#6, gact := 1#4, relkey := 0x8000#16, gout := 1#4,
                          bank := 3#2, lastmode := 2#2, evt := 0x167#9 :: List.replicate 18 0#9, evtCnt := 1#5,
                          status := 0x0D#8 } (some 0x2000#16) (some 0x1000#16)

/-- `busy` has the invariant. -/
theorem busy_inv : BlockInv busy :=
  ⟨⟨by decide, by decide, by decide, by decide⟩,
    ⟨by decide, by decide, by decide, by decide, by decide, by decide⟩,
    ⟨by decide, by decide, .inr ⟨15, by decide, by decide⟩, by decide⟩, by unfold ReleaseRowsIdle; decide,
    ⟨by decide, by decide, by decide, by decide⟩, ⟨by decide, by decide, by decide⟩⟩

theorem witness_StepKeepsInv : BlockInv busy ∧ ∃ t, step busy = .next t :=
  ⟨busy_inv, next_of (by decide)⟩

theorem witness_EveryStepCompletes : BlockInv busy :=
  busy_inv

theorem witness_EveryRunIsSafe : BlockInv busy :=
  busy_inv

theorem witness_PollFeedsGestureItsTriple : busy.ringG.length = busy.depth := by decide

/-- From reset, and from a bank of External mode in force, the expansion port enabled; with GESTURE or without. -/
theorem witness_PollReadsExpansionOnlyWhenUsed :
    (start.upcoming = [] ∧ start.ringG.length = start.depth ∧
      0#2 = (if start.lastmode = 2#2 then start.bank else 0#2)) ∧
    busy.upcoming = [] ∧ busy.ringG.length = busy.depth ∧ busy.ringX.length = busy.depth ∧
      busy.pins.cfg.expEn = true ∧ 3#2 = (if busy.lastmode = 2#2 then busy.bank else 0#2) := by decide

end Sys2Proof.Tests
end

section
/-! SUPPORT. The inputs and the depth that commands leave alone, and the rings' invariant, which alone decides
whether a step answers (spec/00_scope.md R8, R12; spec/10_state.md R23, R27; spec/60_exceptions.md R226). -/

namespace Sys2Proof.Machine

/-- A MAP writes neither the depth nor the inputs (00_scope R8, 10_state R27). -/
theorem commitMap_keeps_inputs (s : State) (m : BankMode) :
    (s.commitMap m).depth = s.depth ∧ (s.commitMap m).pins = s.pins ∧
      (s.commitMap m).upcoming = s.upcoming := by
  obtain ⟨v, hv⟩ := commitMap_eq s m
  rw [hv]
  exact ⟨rfl, rfl, rfl⟩

/-- No command writes the depth or the inputs (00_scope R8, 10_state R27). -/
theorem exec_keeps_inputs {i : Instr} {s t : State} (h : exec i s = .next t) :
    t.depth = s.depth ∧ t.pins = s.pins ∧ t.upcoming = s.upcoming := by
  rcases exec_next_cases h with ⟨-, rfl⟩ | ⟨-, rfl⟩ | ⟨-, -, -, rfl⟩ | ⟨-, -, -, rfl⟩ | ⟨-, -, rfl⟩ |
    ⟨-, -, rfl⟩ | ⟨-, rfl⟩ | ⟨-, rfl⟩ | ⟨-, g, -, rfl⟩ | ⟨m, -, rfl⟩
  iterate 9 exact ⟨rfl, rfl, rfl⟩
  exact commitMap_keeps_inputs s m

/-- No step changes the depth, a reset cycle included (00_scope R8). -/
theorem step_keeps_depth {s t : State} (h : step s = .next t) : t.depth = s.depth := by
  refine step_induction (fun u => u.depth = s.depth) ?command ?illegal ?pins ?reset h rfl
  case command => exact fun i u v hu hx => (exec_keeps_inputs hx).1.trans hu
  case illegal => exact fun k u hu => hu
  case pins => exact fun u hu => (advanceCycle_depth u).trans hu
  case reset => exact fun u hu => hu

/-- Settles O53: commands keep the depth and the inputs, and every other part of a step keeps the depth. -/
theorem depthAndInputsAreNeverWritten : Obligations.DepthAndInputsAreNeverWritten :=
  ⟨fun _ _ h => step_keeps_depth h, fun _ _ _ h => exec_keeps_inputs h⟩

/-- The next slot of a ring of legal depth is one of its slots (40_debounce R100). -/
theorem advancePointer_lt {d : Nat} (hd : depthLegal d = true) (wp : BitVec 4) :
    (advancePointer d wp).toNat < d := by
  rw [advancePointer_toNat hd]
  exact Nat.mod_lt _ ((depthLegal_iff d).1 hd).1

/-- The rings' invariant is about the depth, the ring lengths and the pointers: a state that agrees on them,
or has moved a pointer within the ring, has it too. -/
theorem RingsInv.of_pointers {s t : State} (hs : RingsInv s) (hd : t.depth = s.depth) (hw : t.memoryWf = true)
    (hG : t.wpG = s.wpG ∨ t.wpG = advancePointer s.depth s.wpG)
    (hX : t.wpX = s.wpX ∨ t.wpX = advancePointer s.depth s.wpX) : RingsInv t where
  depth_legal := hd ▸ hs.depth_legal
  rings_wf := hw
  wpG_lt := by
    rw [hd]
    rcases hG with h | h <;> rw [h]
    exacts [hs.wpG_lt, advancePointer_lt hs.depth_legal _]
  wpX_lt := by
    rw [hd]
    rcases hX with h | h <;> rw [h]
    exacts [hs.wpX_lt, advancePointer_lt hs.depth_legal _]

/-- A command leaves the write pointers alone or moves one of them on by a slot (40_debounce R100). -/
theorem exec_pointers {i : Instr} {s t : State} (h : exec i s = .next t) :
    (t.wpG = s.wpG ∨ t.wpG = advancePointer s.depth s.wpG) ∧
      (t.wpX = s.wpX ∨ t.wpX = advancePointer s.depth s.wpX) := by
  rcases exec_next_cases h with ⟨-, rfl⟩ | ⟨-, rfl⟩ | ⟨-, -, -, rfl⟩ | ⟨-, -, -, rfl⟩ | ⟨-, -, rfl⟩ |
    ⟨-, -, rfl⟩ | ⟨-, rfl⟩ | ⟨-, rfl⟩ | ⟨-, g, -, rfl⟩ | ⟨m, -, rfl⟩
  iterate 2 exact ⟨.inl rfl, .inl rfl⟩
  · exact ⟨.inr rfl, .inl rfl⟩
  · exact ⟨.inl rfl, .inr rfl⟩
  iterate 5 exact ⟨.inl rfl, .inl rfl⟩
  obtain ⟨v, hv⟩ := commitMap_eq s m
  rw [hv]
  exact ⟨.inl rfl, .inl rfl⟩

/-- Every command keeps the rings' invariant. -/
theorem ringsInv_exec {i : Instr} {s t : State} (hs : RingsInv s) (h : exec i s = .next t) : RingsInv t :=
  hs.of_pointers (exec_keeps_inputs h).1 (memoryWf_exec hs.rings_wf h) (exec_pointers h).1 (exec_pointers h).2

/-- Raising Illegal keeps the rings' invariant. -/
theorem ringsInv_raiseIllegal (k : Cause) {s : State} (hs : RingsInv s) : RingsInv (raiseIllegal k s) :=
  hs.of_pointers rfl hs.rings_wf (.inl rfl) (.inl rfl)

/-- The next cycle's pins keep the rings' invariant. -/
theorem ringsInv_advanceCycle {s : State} (hs : RingsInv s) : RingsInv (advanceCycle s) :=
  hs.of_pointers (advanceCycle_depth s)
    (by rw [memoryWf_iff]; simpa using (memoryWf_iff s).1 hs.rings_wf)
    (.inl (advanceCycle_wpG s)) (.inl (advanceCycle_wpX s))

/-- The reset action keeps the rings' invariant: empty rings of `DEPTH` slots, both pointers at slot 0. -/
theorem ringsInv_resetAction {s : State} (hs : RingsInv s) : RingsInv (resetAction s) where
  depth_legal := hs.depth_legal
  rings_wf := memoryWf_initial s.depth
  wpG_lt := ((depthLegal_iff _).1 hs.depth_legal).1
  wpX_lt := ((depthLegal_iff _).1 hs.depth_legal).1

/-- Every step keeps the rings' invariant. -/
theorem ringsInv_step {s t : State} (h : step s = .next t) (hs : RingsInv s) : RingsInv t :=
  step_induction RingsInv (fun _ _ _ => ringsInv_exec) (fun k _ => ringsInv_raiseIllegal k)
    (fun _ => ringsInv_advanceCycle) (fun _ => ringsInv_resetAction) h hs

/-- With the rings in order every command answers: SAMPLE and READ find their slots, and no other command can
stop (00_scope R12). -/
theorem exec_answers (i : Instr) {s : State} (hs : RingsInv s) : ∃ t, exec i s = .next t := by
  obtain ⟨hG, hX⟩ := (memoryWf_iff s).1 hs.rings_wf
  cases i
  case sampleG => exact ⟨_, (execSampleG_next_iff s _).2 ⟨hG, hs.wpG_lt, rfl⟩⟩
  case sampleX => exact ⟨_, (execSampleX_next_iff s _).2 ⟨hX, hs.wpX_lt, rfl⟩⟩
  case readG => exact ⟨_, (execReadG_next_iff s _).2 ⟨hG, rfl⟩⟩
  case readX => exact ⟨_, (execReadX_next_iff s _).2 ⟨hX, rfl⟩⟩
  all_goals exact ⟨_, rfl⟩

/-- With the rings in order a port answers, idle, illegal word or command, and leaves them in order. -/
theorem runPort_answers (p : Port) (c : Option Word) {s : State} (hs : RingsInv s) :
    ∃ t, runPort p c s = .next t ∧ RingsInv t := by
  cases c with
  | none => exact ⟨s, rfl, hs⟩
  | some w =>
    simp only [runPort, runWord]
    cases decode p w with
    | illegal k => exact ⟨_, rfl, ringsInv_raiseIllegal k hs⟩
    | legal i =>
      obtain ⟨t, ht⟩ := exec_answers i hs
      exact ⟨t, ht, ringsInv_exec hs ht⟩

/-- With the rings in order both ports' commands of a cycle answer, the producer's in the consumer's state. -/
theorem runCommands_answers {s : State} (hs : RingsInv s) : ∃ t, runCommands s = .next t := by
  obtain ⟨u, hu, hru⟩ := runPort_answers .consumer s.pins.ccmd hs
  obtain ⟨v, hv, -⟩ := runPort_answers .producer s.pins.pcmd hru
  exact ⟨v, (andThen_next_iff _ _ _).2 ⟨u, hu, hv⟩⟩

/-- With the rings in order a step answers, whatever the pins carry (60_exceptions R226). -/
theorem step_answers {s : State} (hs : RingsInv s) : ∃ t, step s = .next t := by
  have hcycle : ∃ u, runCycle s = .next u := by
    unfold runCycle
    split
    · exact ⟨_, rfl⟩
    · exact runCommands_answers hs
  obtain ⟨u, hu⟩ := hcycle
  exact ⟨advanceCycle u, (andThen_next_iff _ _ _).2 ⟨u, hu, rfl⟩⟩

/-- Settles O57: of the invariant, the rings' part is what a step needs. -/
theorem everyStepCompletes : Obligations.EveryStepCompletes :=
  fun _ hs => step_answers hs.rings

/-- A run whose first step answers goes on from its answer. -/
theorem run_succ_of_step (k : Nat) {s u : State} (h : step s = .next u) :
    Host.Core.run Sys2Proof.core (k + 1) s = Host.Core.run Sys2Proof.core k u := by
  have hcore : Sys2Proof.core.step s = .next u := h
  simp only [Host.Core.run, hcore]

/-- Runs of any length from a state with the rings in order are safe: the invariant is carried along the run. -/
theorem safeRun_of_ringsInv (k : Nat) {s : State} (hs : RingsInv s) : SafeRun k s := by
  induction k generalizing s with
  | zero => exact ⟨s, rfl⟩
  | succ k ih =>
    obtain ⟨u, hu⟩ := step_answers hs
    obtain ⟨t, ht⟩ := ih (ringsInv_step hu hs)
    exact ⟨t, (run_succ_of_step k hu).trans ht⟩

/-- Settles O58: by induction on the number of steps, through the rings' part of the invariant. -/
theorem everyRunIsSafe : Obligations.EveryRunIsSafe :=
  fun k _ hs => safeRun_of_ringsInv k hs.rings

end Sys2Proof.Machine
end

section
/-! SUPPORT. The registers that a MAP commits, the bounds on its events, and its independence of the model's own
counter (spec/42_bank_mapper.md R170, R184, R186, R187; log entry 16). -/

namespace Sys2Proof.Machine

section Commit

variable (s : State) (m : BankMode)

@[simp] theorem commitMap_bank : (s.commitMap m).bank = s.mapBank m := by
  obtain ⟨v, hv⟩ := commitMap_eq s m
  rw [hv]; rfl

@[simp] theorem commitMap_lastmode : (s.commitMap m).lastmode = modeCode m := by
  obtain ⟨v, hv⟩ := commitMap_eq s m
  rw [hv]; rfl

@[simp] theorem commitMap_evt : (s.commitMap m).evt = eventBuffer (s.mapEvents m) := by
  obtain ⟨v, hv⟩ := commitMap_eq s m
  rw [hv]; rfl

@[simp] theorem commitMap_evtCnt :
    (s.commitMap m).evtCnt = s.eventCount m (s.mapEvents m).length := by
  obtain ⟨v, hv⟩ := commitMap_eq s m
  rw [hv]; rfl

@[simp] theorem commitMap_freeDraws :
    (s.commitMap m).freeDraws = s.drawsAfterMap (s.mapEvents m).length := by
  obtain ⟨v, hv⟩ := commitMap_eq s m
  rw [hv]; rfl

end Commit

section Count

variable (s : State) (m : BankMode) {n : Nat}

/-- A number of events that 5 bits hold is counted (42_bank_mapper R170). -/
theorem eventCount_toNat_of_lt (h : n < 32) : (s.eventCount m n).toNat = n := by
  rw [State.eventCount, if_pos h, BitVec.toNat_ofNat, Nat.mod_eq_of_lt h]

/-- A number of events that 5 bits do not hold gives the free value (log entry 16). -/
theorem eventCount_of_le (h : 32 ≤ n) : s.eventCount m n = s.freeEventCount m :=
  if_neg (Nat.not_lt.2 h)

/-- A MAP whose events are counted draws no free value. -/
theorem drawsAfterMap_of_lt (h : n < 32) : s.drawsAfterMap n = s.freeDraws :=
  if_pos h

/-- A MAP whose events cannot be counted draws one free value. -/
theorem drawsAfterMap_of_le (h : 32 ≤ n) : s.drawsAfterMap n = s.freeDraws + 1 :=
  if_neg (Nat.not_lt.2 h)

end Count

section Events

/-- Step (a) emits at most one event. -/
theorem keyupEvents_length_le (base : Nat) (b : BankNo) (bsu : ExpMask) :
    (keyupEvents base b bsu).length ≤ 1 := by
  unfold keyupEvents
  split <;> simp

/-- Step (b) emits at most two events: a forced note-off and a note-on. -/
theorem keydownEvents_length_le (base : Nat) (b : BankNo) (bsd bss : ExpMask) :
    (keydownEvents base b bsd bss).length ≤ 2 := by
  unfold keydownEvents
  split
  · simp
  · split <;> simp

/-- Step (c) emits at most one event for each note key, whatever the mask. -/
theorem noteKeyEvents_length_le (on : Bool) (base : Nat) (nk mask : GridMask) :
    (noteKeyEvents on base nk mask).length ≤ ((List.range 16).filter nk.getLsbD).length := by
  rw [noteKeyEvents_eq, List.length_map]
  refine (List.monotone_filter_right _ fun i hi => ?_).length_le
  exact (Bool.and_eq_true_iff.1 hi).1

/-- A MAP gives at most one keyup event, two keydown events, and two events for each note key of its mode. -/
theorem mapEvents_length_le (s : State) (m : BankMode) {n : Nat}
    (hn : ((List.range 16).filter (s.selectors m).nk.getLsbD).length = n) :
    (s.mapEvents m).length ≤ 1 + 2 + n + n := by
  subst hn
  simp only [State.mapEvents, List.length_append]
  gcongr
  · exact keyupEvents_length_le _ _ _
  · exact keydownEvents_length_le _ _ _ _
  · exact noteKeyEvents_length_le _ _ _ _
  · exact noteKeyEvents_length_le _ _ _ _

/-- Internal mode has 12 note keys, so its MAP gives at most 27 events, whatever the operands. -/
theorem mapEvents_internal_length_le (s : State) : (s.mapEvents .internal).length ≤ 27 := by
  have hkeys : ((List.range 16).filter (0xFFF0#16).getLsbD).length = 12 := by decide
  exact mapEvents_length_le s .internal hkeys

/-- An identity note is at most three above its base (42_bank_mapper R176). -/
theorem identityNote_le (base : Nat) (b : BankNo) : identityNote base b ≤ base + 3 := by
  have := b.isLt
  unfold identityNote
  omega

/-- The note of a keyup event is an identity note. -/
theorem keyupEvents_note_le {base : Nat} {b : BankNo} {bsu : ExpMask} {e : NoteEvent}
    (h : e ∈ keyupEvents base b bsu) : e.note ≤ base + 3 := by
  unfold keyupEvents at h
  split at h
  · rw [List.mem_singleton.1 h]; exact identityNote_le base b
  · cases h

/-- The notes of the keydown events are identity notes. -/
theorem keydownEvents_note_le {base : Nat} {b : BankNo} {bsd bss : ExpMask} {e : NoteEvent}
    (h : e ∈ keydownEvents base b bsd bss) : e.note ≤ base + 3 := by
  unfold keydownEvents at h
  split at h
  · cases h
  · rcases List.mem_append.1 h with h | h
    · split at h
      · rw [List.mem_singleton.1 h]; exact identityNote_le base b
      · cases h
    · rw [List.mem_singleton.1 h]; exact identityNote_le base _

/-- The notes of the note keys lie in the window of 16 above their base (42_bank_mapper R182). -/
theorem noteKeyEvents_note_le {on : Bool} {base : Nat} {nk mask : GridMask} {e : NoteEvent}
    (h : e ∈ noteKeyEvents on base nk mask) : e.note ≤ base + 15 := by
  rw [noteKeyEvents_eq] at h
  obtain ⟨i, -, rfl⟩ := List.mem_map.1 h
  exact Nat.add_le_add_left (noteOffset_le i) base

/-- The stride of every mode is at most 16. -/
theorem selectors_stride_le (s : State) (m : BankMode) : (s.selectors m).stride ≤ 16 := by
  cases m with
  | off => exact Nat.zero_le 16
  | internal => exact Nat.le_add_right 12 4
  | external =>
    cases h : s.cfgExpEn with
    | true => rw [selectors_external_enabled h]; exact Nat.le_refl 16
    | false => rw [selectors_external_disabled h]; exact Nat.le_refl 16

/-- No note of any MAP is above 190: base 127, three strides of 16, offset 15 (42_bank_mapper R187). -/
theorem mapEvents_note_le {s : State} {m : BankMode} {e : NoteEvent} (h : e ∈ s.mapEvents m) :
    e.note ≤ 190 := by
  have hbase : s.cfgBaseNote < 128 := s.pins.cfg.baseNote.isLt
  have hbank : s.cfgBankNoteBase < 128 := s.pins.cfg.bankNoteBase.isLt
  have hwindow : (bankAfter (s.entryBank m) (s.selectors m).bsd).toNat * (s.selectors m).stride ≤ 3 * 16 :=
    Nat.mul_le_mul (Nat.le_of_lt_succ (BitVec.isLt _)) (selectors_stride_le s m)
  simp only [State.mapEvents, List.mem_append] at h
  rcases h with ((h | h) | h) | h
  · have := keyupEvents_note_le h; omega
  · have := keydownEvents_note_le h; omega
  · have := noteKeyEvents_note_le h; omega
  · have := noteKeyEvents_note_le h; omega

end Events

/-- The buffer that a MAP commits holds its events, none of whose notes is truncated (42_bank_mapper R184,
R187). -/
theorem commitMap_bufferHolds (s : State) (m : BankMode) :
    BufferHolds (s.commitMap m) ((s.mapEvents m).map fun e => (e.on, e.note)) := by
  unfold BufferHolds
  rw [commitMap_evt, commitMap_evtCnt, List.length_map]
  refine ⟨eventCount_toNat_of_lt s m, eventBuffer_length _, ?_, ?_⟩
  · intro k e hk he
    rw [List.getElem?_map] at he
    obtain ⟨n, hn, rfl⟩ := Option.map_eq_some_iff.1 he
    have hle := mapEvents_note_le (List.mem_of_getElem? hn)
    rw [eventBuffer_get _ hk, hn]
    exact congrArg some (eventEntry_eq n (by omega))
  · intro k hlen hk
    rw [eventBuffer_get _ hk, List.getElem?_eq_none hlen]
    rfl

/-- The model's counter enters a MAP's result nowhere but in the counter itself (log entry 16). -/
theorem commitMap_withFreeDraws (s : State) (m : BankMode) (n : Nat) :
    ((s.withFreeDraws n).commitMap m).withFreeDraws (s.commitMap m).freeDraws = s.commitMap m := by
  have hev : (s.withFreeDraws n).mapEvents m = s.mapEvents m := rfl
  simp only [State.commitMap, State.flagNotes, hev]
  split <;> rfl

/-- No command reads the model's counter: with another value in it a command answers the same state but for the
counter (log entry 16). -/
theorem exec_withFreeDraws {i : Instr} {s t : State} (n : Nat) (h : exec i s = .next t) :
    ∃ u, exec i (s.withFreeDraws n) = .next u ∧ u.withFreeDraws t.freeDraws = t := by
  rcases exec_next_cases h with ⟨rfl, rfl⟩ | ⟨rfl, rfl⟩ | ⟨rfl, hl, hj, rfl⟩ | ⟨rfl, hl, hj, rfl⟩ |
    ⟨rfl, hl, rfl⟩ | ⟨rfl, hl, rfl⟩ | ⟨rfl, rfl⟩ | ⟨rfl, rfl⟩ | ⟨rfl, g, rfl, rfl⟩ | ⟨m, hm, rfl⟩
  iterate 2 exact ⟨_, rfl, rfl⟩
  · exact ⟨_, (execSampleG_next_iff _ _).2 ⟨hl, hj, rfl⟩, rfl⟩
  · exact ⟨_, (execSampleX_next_iff _ _).2 ⟨hl, hj, rfl⟩, rfl⟩
  · exact ⟨_, (execReadG_next_iff _ _).2 ⟨hl, rfl⟩, rfl⟩
  · exact ⟨_, (execReadX_next_iff _ _).2 ⟨hl, rfl⟩, rfl⟩
  iterate 3 exact ⟨_, rfl, rfl⟩
  exact ⟨_, exec_map hm _, commitMap_withFreeDraws s m n⟩

/-- Settles O46: a MAP of 32 events or more commits the free value and counts the draw, a shorter one commits its
length; MAP.INT is always shorter, and the counter is read by no command. -/
theorem uncountableMapDrawsFreeValue : Obligations.UncountableMapDrawsFreeValue := by
  refine ⟨?uncountable, ?countable, mapEvents_internal_length_le, fun _ _ _ n h => exec_withFreeDraws n h⟩
  case uncountable =>
    intro s i m him hlen
    have hmap : (i, m) ∈ mapCommands := by
      simp only [mapCommands, List.mem_cons, List.not_mem_nil, or_false] at him ⊢
      exact him.imp_right .inr
    exact ⟨_, exec_map hmap s, by rw [commitMap_evtCnt, eventCount_of_le s m hlen],
      by rw [commitMap_freeDraws, drawsAfterMap_of_le s hlen], commitMap_bank s m, commitMap_lastmode s m,
      commitMap_bufferHolds s m⟩
  case countable =>
    intro s i m him hlen
    exact ⟨_, exec_map him s, by rw [commitMap_evtCnt, eventCount_toNat_of_lt s m hlen],
      by rw [commitMap_freeDraws, drawsAfterMap_of_lt s hlen]⟩

end Sys2Proof.Machine
end

section
/-! SUPPORT. The invariant of 10_state R23 to R35 register group by register group, each group's predicate about the
registers' values alone; what every command, Illegal, the reset action and the next pins make of each group; and the
step that keeps them all. -/

namespace Sys2Proof.Machine

/-- The edge laws of one channel, of either width (40_debounce R107). -/
structure EdgeLaws {w : Nat} (kd ku prev : BitVec w) : Prop where
  disjoint : kd &&& ku = 0#w
  down_held : kd &&& prev = kd
  up_released : ku &&& prev = 0#w

/-- The gesture registers in range, with the release rows idle (10_state R28 to R31; 41_gesture R133, R143). -/
structure GestureLegal (g : GestureRegs) : Prop where
  gstate_lt : g.gstate.toNat < Config.numGStates
  gact_le : g.gact.toNat ≤ 10
  relkey_key : isKeyOrEmpty g.relkey
  gout_le : g.gout.toNat ≤ 10
  armed : g.gstate ∈ [4#6, 8#6, 17#6, 36#6] → isDown g.gact = true

/-- The note bound of the event buffer's entries (42_bank_mapper R187). -/
def EntryInRange (e : EvtEntry) : Prop :=
  (e.extractLsb' 0 8).toNat ≤ 190

/-- The mapper's registers in range (10_state R33, R34; 42_bank_mapper R174, R187). -/
structure MapperLegal (lastmode : BitVec 2) (bank : BankNo) (evt : List EvtEntry) : Prop where
  lastmode_ne : lastmode ≠ 3#2
  off_bank : lastmode = 0#2 → bank = 0#2
  length_eq : evt.length = Config.evtMax
  notes : ∀ e ∈ evt, EntryInRange e

/-- A legal value of `STATUS` (10_state R35, 60_exceptions R222). -/
structure StatusLegal (v : BitVec 8) : Prop where
  reserved : v.extractLsb' 5 3 = 0#3
  cause_le : (v.extractLsb' 2 3).toNat ≤ 4
  cause_iff : v.extractLsb' 2 3 = 0#3 ↔ v.getLsbD 0 = false

/-- The invariant of the registers beside the rings and their pointers, group by group. -/
structure RegistersLegal (s : State) : Prop where
  edgesG : EdgeLaws s.kdG s.kuG s.prevG
  edgesX : EdgeLaws s.kdX s.kuX s.prevX
  gesture : GestureLegal s.gestureRegs
  mapper : MapperLegal s.lastmode s.bank s.evt
  status : StatusLegal s.status

/-- The invariant is the rings' part and the register groups. -/
theorem blockInv_iff (s : State) : BlockInv s ↔ RingsInv s ∧ RegistersLegal s := by
  constructor
  · rintro ⟨rings, edges, gesture, rows, mapper, status⟩
    exact ⟨rings,
      { edgesG := ⟨edges.disjointG, edges.downG_held, edges.upG_released⟩
        edgesX := ⟨edges.disjointX, edges.downX_held, edges.upX_released⟩
        gesture := ⟨gesture.gstate_legal, gesture.gact_legal, gesture.relkey_legal, gesture.gout_legal, rows⟩
        mapper := ⟨mapper.lastmode_legal, mapper.off_bank_zero, mapper.evt_length, mapper.note_le⟩
        status := ⟨status.reserved_zero, status.icause_legal, status.icause_iff⟩ }⟩
  · rintro ⟨rings, edgesG, edgesX, gesture, mapper, status⟩
    exact
      { rings := rings
        edges := ⟨edgesG.disjoint, edgesG.down_held, edgesG.up_released, edgesX.disjoint, edgesX.down_held,
          edgesX.up_released⟩
        gesture := ⟨gesture.gstate_lt, gesture.gact_le, gesture.relkey_key, gesture.gout_le⟩
        releaseRows := gesture.armed
        mapper := ⟨mapper.lastmode_ne, mapper.off_bank, mapper.length_eq, mapper.notes⟩
        status := ⟨status.reserved, status.cause_le, status.cause_iff⟩ }

section Edges

/-- Empty edge registers obey the edge laws (70_reset R250). -/
theorem edgeLaws_zero {w : Nat} : EdgeLaws 0#w 0#w 0#w :=
  ⟨BitVec.and_self, BitVec.and_self, BitVec.and_self⟩

/-- CALC's edges obey the edge laws against the state it saves, bit by bit (40_debounce R104, R107). -/
theorem edgeLaws_of_calc {w : Nat} (prev cur : BitVec w) :
    EdgeLaws (keydownEdges prev cur) (keyupEdges prev cur) cur where
  disjoint := by
    refine BitVec.eq_of_getLsbD_eq fun i _ => ?_
    rw [BitVec.getLsbD_and, keydownEdges_getLsbD, keyupEdges_getLsbD, BitVec.getLsbD_zero]
    cases cur.getLsbD i <;> simp
  down_held := by
    refine BitVec.eq_of_getLsbD_eq fun i _ => ?_
    rw [BitVec.getLsbD_and, keydownEdges_getLsbD]
    cases cur.getLsbD i <;> simp
  up_released := by
    refine BitVec.eq_of_getLsbD_eq fun i _ => ?_
    rw [BitVec.getLsbD_and, keyupEdges_getLsbD, BitVec.getLsbD_zero]
    cases cur.getLsbD i <;> simp

end Edges

section Gesture

/-- A release key taken from a mask is empty or one key (41_gesture R136, R141). -/
theorem isKeyOrEmpty_lowestSetBit (m : GridMask) : isKeyOrEmpty (lowestSetBit m) := by
  rcases lowestSetBit_cases m with ⟨-, h⟩ | ⟨k, hk, -, -, h⟩
  · exact .inl h
  · exact .inr ⟨k, hk, h⟩

/-- A DOWN code and its release are action codes (30_encoding R78). -/
theorem isDown_le {a : ActionCode} : isDown a = true → a.toNat ≤ 10 ∧ (releaseOf a).toNat ≤ 10 := by
  revert a; decide

/-- The code that the chord arms is a DOWN code (41_gesture R132, R136). -/
theorem isDown_actBDown : isDown actBDown = true := by decide

/-- The idle state has no release row (41_gesture R143). -/
theorem idle_no_releaseRow : (0#6 : GStateId) ∉ [4#6, 8#6, 17#6, 36#6] := by decide

/-- Every row of the table has legal fields (30_encoding R80). -/
theorem gestureTable_wellFormed : ∀ r ∈ gestureTable, r.wellFormed = true := by decide

/-- The rows that lead to a state with a release row are those that arm an action (41_gesture R143). -/
theorem gestureTable_arms :
    ∀ r ∈ gestureTable, r.next ∈ [4#6, 8#6, 17#6, 36#6] → isDown r.action = true := by decide

/-- The reset values of the gesture registers are legal (70_reset R250). -/
theorem gestureLegal_reset : GestureLegal { gstate := 0#6, gact := 0#4, relkey := 0#16, gout := 0#4 } :=
  ⟨by decide, by decide, .inl rfl, by decide, by decide⟩

variable {g : GestureRegs} (kd ku st : GridMask)

/-- The armed-release check keeps the gesture registers legal (41_gesture R138, R139). -/
theorem gestureLegal_armedRelease (h : GestureLegal g) (hdown : isDown g.gact = true) :
    GestureLegal (armedRelease g st) := by
  unfold armedRelease
  split
  · exact { h with
      gstate_lt := Nat.zero_lt_succ _
      gact_le := (isDown_le hdown).2
      gout_le := (isDown_le hdown).2
      armed := fun hmem => absurd hmem idle_no_releaseRow }
  · exact { h with gout_le := Nat.zero_le _ }

/-- The registers after adopting a state and an action as the table walk does (41_gesture R140, R142): they are
legal when the two are, and the state has no release row or the action arms. -/
theorem gestureLegal_adopt {gs : GStateId} {act : ActionCode} (h : GestureLegal g)
    (hgs : gs.toNat < Config.numGStates) (hact : act.toNat ≤ 10)
    (harm : gs ∈ [4#6, 8#6, 17#6, 36#6] → isDown act = true) :
    GestureLegal
      { gstate := gs, gact := act, relkey := if act == actNone then g.relkey else lowestSetBit kd,
        gout := act } where
  gstate_lt := hgs
  gact_le := hact
  relkey_key := by
    dsimp only
    split
    · exact h.relkey_key
    · exact isKeyOrEmpty_lowestSetBit kd
  gout_le := hact
  armed := harm

/-- The table walk keeps the gesture registers legal: it goes idle, or adopts a row of the table (41_gesture R140). -/
theorem gestureLegal_walkAndArm (h : GestureLegal g) : GestureLegal (walkAndArm g kd ku st) := by
  unfold walkAndArm
  cases hwalk : tableWalk g.gstate kd ku st with
  | none => exact gestureLegal_adopt kd h (by decide) (by decide) (by decide)
  | some r =>
    have hmem := (tableWalk_some hwalk).1
    have hwf := gestureTable_wellFormed r hmem
    simp only [GestureRow.wellFormed, Bool.and_eq_true, decide_eq_true_eq] at hwf
    obtain ⟨⟨-, hnext⟩, haction⟩ := hwf
    exact gestureLegal_adopt kd h hnext haction (gestureTable_arms r hmem)

/-- Every poll keeps the gesture registers legal (41_gesture R130). -/
theorem gestureLegal_gestureStep (h : GestureLegal g) : GestureLegal (gestureStep g kd ku st) := by
  unfold gestureStep
  split
  · exact { h with gout_le := Nat.zero_le _ }
  split
  · exact { h with
      gact_le := (isDown_le isDown_actBDown).1
      relkey_key := isKeyOrEmpty_lowestSetBit kd
      gout_le := (isDown_le isDown_actBDown).1
      armed := fun _ => isDown_actBDown }
  split
  · next hdown => exact gestureLegal_armedRelease st h hdown
  · exact gestureLegal_walkAndArm kd ku st h

end Gesture

section Mapper

/-- The entry of an event within the note bound is within it: the note's 8 bits hold the note (10_state R34). -/
theorem eventEntry_inRange {e : NoteEvent} (h : e.note ≤ 190) : EntryInRange (eventEntry e) := by
  rw [EntryInRange, eventEntry_eq e (by omega), BitVec.extractLsb'_toNat, BitVec.toNat_ofNat, Nat.shiftRight_zero]
  split <;> omega

/-- A buffer of events within the note bound has every entry within it, the unused ones included. -/
theorem eventBuffer_inRange {ev : List NoteEvent} (h : ∀ e ∈ ev, e.note ≤ 190) :
    ∀ x ∈ eventBuffer ev, EntryInRange x := by
  intro x hx
  obtain ⟨k, -, rfl⟩ := List.mem_map.1 hx
  cases hk : ev[k]? with
  | none => exact Nat.zero_le _
  | some e => exact eventEntry_inRange (h e (List.mem_of_getElem? hk))

/-- The reset values of the mapper's registers are legal (70_reset R250). -/
theorem mapperLegal_reset : MapperLegal 0#2 0#2 (List.replicate Config.evtMax 0#9) where
  lastmode_ne := by decide
  off_bank := fun _ => rfl
  length_eq := List.length_replicate
  notes := fun x hx => by rw [List.eq_of_mem_replicate hx]; exact Nat.zero_le _

/-- MAP.OFF commits bank 0: it enters at bank 0 and has no bank selectors (42_bank_mapper R174). -/
theorem mapBank_off (s : State) : s.mapBank .off = 0#2 := by
  have hentry : s.entryBank .off = 0#2 := if_pos (by simp)
  simp only [State.mapBank, hentry]
  rfl

/-- What a MAP commits is legal for the mapper's registers (42_bank_mapper R170, R174, R187). -/
theorem mapperLegal_of_map (s : State) (m : BankMode) :
    MapperLegal (modeCode m) (s.mapBank m) (eventBuffer (s.mapEvents m)) where
  lastmode_ne := by cases m <;> decide
  off_bank := by
    cases m with
    | off => exact fun _ => mapBank_off s
    | internal => exact fun hcode => absurd hcode (by decide)
    | external => exact fun hcode => absurd hcode (by decide)
  length_eq := eventBuffer_length _
  notes := eventBuffer_inRange fun _ => mapEvents_note_le

end Mapper

section Status

/-- A packed status is legal when its cause exists and is there exactly while `ILLEGAL` is. -/
theorem statusLegal_packStatus {ill : Bool} (oor : Bool) {c : BitVec 3} (hle : c.toNat ≤ 4)
    (hiff : c = 0#3 ↔ ill = false) : StatusLegal (packStatus ill oor c) := by
  obtain ⟨hill, -, hcause, hreserved⟩ := packStatus_fields ill oor c
  exact ⟨hreserved, by rwa [hcause], by rwa [hcause, hill]⟩

/-- The cleared status is legal (43_control R201). -/
theorem statusLegal_zero : StatusLegal 0x00#8 := ⟨by decide, by decide, by decide⟩

/-- The cause codes are 1 to 4 (60_exceptions R222). -/
theorem causeCode_range (k : Cause) : causeCode k ≠ 0#3 ∧ (causeCode k).toNat ≤ 4 := by
  cases k <;> decide

variable {s : State}

/-- Raising Illegal leaves a legal status: the first cause stays, and a first one is recorded (60_exceptions R221). -/
theorem statusLegal_raiseIllegal (k : Cause) (h : StatusLegal s.status) :
    StatusLegal (raiseIllegal k s).status := by
  obtain ⟨-, hle, hiff⟩ := h
  rw [raiseIllegal_eq, State.withStatus_status]
  cases hflag : s.illegalFlag with
  | true =>
    have hne : s.icause ≠ 0#3 := fun h0 => Bool.false_ne_true ((hiff.1 h0).symm.trans hflag)
    exact statusLegal_packStatus _ hle (by simp [hne])
  | false =>
    obtain ⟨hne, hcode⟩ := causeCode_range k
    exact statusLegal_packStatus _ hcode (by simp [hne])

/-- Flagging notes leaves a legal status: it writes `NOTE_OOR` at most (42_bank_mapper R188). -/
theorem statusLegal_flagNotes (ev : List NoteEvent) (h : StatusLegal s.status) :
    StatusLegal (s.flagNotes ev).status := by
  unfold State.flagNotes
  split
  · exact statusLegal_packStatus _ h.cause_le h.cause_iff
  · exact h

end Status

section Registers

variable {s : State}

/-- A MAP keeps every register group legal: it writes the mapper's registers, and flags notes. -/
theorem registersLegal_commitMap (m : BankMode) (hs : RegistersLegal s) :
    RegistersLegal (s.commitMap m) := by
  have hflag : ∀ (u : State) (ev : List NoteEvent), RegistersLegal u → RegistersLegal (u.flagNotes ev) := by
    intro u ev hu
    rw [flagNotes_eq]
    exact { hu with status := statusLegal_flagNotes ev hu.status }
  exact hflag _ _ { hs with mapper := mapperLegal_of_map s m }

/-- Every command keeps every register group legal: each writes one group, or none of them. -/
theorem registersLegal_exec {i : Instr} {t : State} (hs : RegistersLegal s) (h : exec i s = .next t) :
    RegistersLegal t := by
  rcases exec_next_cases h with ⟨-, rfl⟩ | ⟨-, rfl⟩ | ⟨-, -, -, rfl⟩ | ⟨-, -, -, rfl⟩ | ⟨-, -, rfl⟩ |
    ⟨-, -, rfl⟩ | ⟨-, rfl⟩ | ⟨-, rfl⟩ | ⟨-, g, rfl, rfl⟩ | ⟨m, -, rfl⟩
  · exact hs
  · exact { hs with status := statusLegal_zero }
  iterate 4 exact { hs with }
  · exact { hs with edgesG := edgeLaws_of_calc s.prevG s.stateG }
  · exact { hs with edgesX := edgeLaws_of_calc s.prevX s.stateX }
  · exact { hs with gesture := gestureLegal_gestureStep s.opKd s.opKu s.opSt hs.gesture }
  · exact registersLegal_commitMap m hs

/-- Raising Illegal keeps every register group legal. -/
theorem registersLegal_raiseIllegal (k : Cause) (hs : RegistersLegal s) :
    RegistersLegal (raiseIllegal k s) :=
  { hs with status := statusLegal_raiseIllegal k hs.status }

/-- The next cycle's pins touch no register group. -/
theorem registersLegal_advanceCycle (hs : RegistersLegal s) : RegistersLegal (advanceCycle s) := by
  rw [advanceCycle_eq]
  exact { hs with }

/-- The reset values of every register group are legal, at every depth (70_reset R250). -/
theorem registersLegal_initial (d : Nat) : RegistersLegal (State.initial d) where
  edgesG := edgeLaws_zero
  edgesX := edgeLaws_zero
  gesture := gestureLegal_reset
  mapper := mapperLegal_reset
  status := statusLegal_zero

/-- The reset action leaves every register group at its reset values. -/
theorem registersLegal_resetAction (s : State) : RegistersLegal (resetAction s) :=
  { registersLegal_initial s.depth with }

/-- Every step keeps every register group legal. -/
theorem registersLegal_step {t : State} (h : step s = .next t) (hs : RegistersLegal s) : RegistersLegal t :=
  step_induction RegistersLegal (fun _ _ _ => registersLegal_exec) (fun k _ => registersLegal_raiseIllegal k)
    (fun _ => registersLegal_advanceCycle) (fun u _ => registersLegal_resetAction u) h hs

end Registers

/-- Settles O56: the rings' part and each register group are kept by every part of a step. -/
theorem stepKeepsInv : Obligations.StepKeepsInv := by
  intro s t hs h
  obtain ⟨hrings, hregs⟩ := (blockInv_iff s).1 hs
  exact (blockInv_iff t).2 ⟨ringsInv_step h hrings, registersLegal_step h hregs⟩

end Sys2Proof.Machine
end

section
/-! SUPPORT. What the observation outputs show: each register is determined by its outputs (10_state R40). -/

namespace Sys2Proof.Machine

/-- A value widened to a bus can be read back from it. -/
theorem setWidth_bus_injective {w : Nat} (hw : w ≤ 16) :
    Function.Injective (fun v : BitVec w => (v.setWidth 16 : Word)) := by
  intro u v h
  have hback := congrArg (BitVec.setWidth w) h
  simpa [BitVec.setWidth_setWidth_of_le _ hw] using hback

/-- Registers that fit a bus and show the same on it are the same. -/
theorem eq_of_shown_eq {w : Nat} (hw : w ≤ 16) {u v : BitVec w}
    (h : some (u.setWidth 16 : Word) = some (v.setWidth 16)) : u = v :=
  setWidth_bus_injective hw (Option.some.inj h)

/-- Lists of registers that show the same entry by entry on the outputs are the same. -/
theorem list_eq_of_shown_eq {w : Nat} (hw : w ≤ 16) {l m : List (BitVec w)}
    (h : ∀ j : Nat, (l[j]?).map (fun v => (v.setWidth 16 : Word)) = (m[j]?).map (·.setWidth 16)) : l = m :=
  List.ext_getElem? fun j => Option.map_injective (setWidth_bus_injective hw) (h j)

/-- With the reserved bits 0 `STATUS` reads as it is (10_state R35). -/
theorem statusRead_eq_status {s : State} (h : StatusInv s) : s.statusRead = s.status := by
  have hmask : ∀ v : BitVec 8, v.extractLsb' 5 3 = 0#3 → v &&& statusMask = v := by decide
  exact hmask s.status h.reserved_zero

/-- Settles O54: each register is recovered from its outputs, the rings and the event buffer slot by slot. -/
theorem outputsShowEveryRegister : Obligations.OutputsShowEveryRegister := by
  intro s t hdepth hs ht h
  have hringG : s.ringG = t.ringG := List.ext_getElem? fun j => h (.ringG j)
  have hringX : s.ringX = t.ringX := list_eq_of_shown_eq (by decide) fun j => h (.ringX j)
  have hevt : s.evt = t.evt := list_eq_of_shown_eq (by decide) fun k => h (.evt k)
  have hstatus : s.status = t.status := by
    rw [← statusRead_eq_status hs, ← statusRead_eq_status ht]
    exact eq_of_shown_eq (by decide) (h .status)
  exact (State.mk.injEq ..).mpr ⟨hdepth, hringG, hringX,
    eq_of_shown_eq (by decide) (h .wpG), eq_of_shown_eq (by decide) (h .wpX),
    Option.some.inj (h .stateG), eq_of_shown_eq (by decide) (h .stateX),
    Option.some.inj (h .prevG), eq_of_shown_eq (by decide) (h .prevX),
    Option.some.inj (h .kdG), Option.some.inj (h .kuG),
    eq_of_shown_eq (by decide) (h .kdX), eq_of_shown_eq (by decide) (h .kuX),
    eq_of_shown_eq (by decide) (h .gstate), eq_of_shown_eq (by decide) (h .gact),
    Option.some.inj (h .relkey), eq_of_shown_eq (by decide) (h .gout),
    eq_of_shown_eq (by decide) (h .bank), eq_of_shown_eq (by decide) (h .lastmode), hevt,
    eq_of_shown_eq (by decide) (h .evtCnt), hstatus, rfl, rfl, rfl⟩

end Sys2Proof.Machine
end

section
/-! SUPPORT. No wire leads from the debouncer to GESTURE and MAP: its registers as one group, and what a command that
takes its operands from the buses makes of that group (spec/20_memory.md R57). -/

namespace Sys2Proof.Machine

/-- The debouncer's registers: on each channel the ring, the write pointer, the stable state, the previous state and
the edges (10_state R21 to R26). -/
structure DebouncerRegs where
  ringG : List GridMask
  ringX : List ExpMask
  wpG : BitVec 4
  wpX : BitVec 4
  stateG : GridMask
  prevG : GridMask
  kdG : GridMask
  kuG : GridMask
  stateX : ExpMask
  prevX : ExpMask
  kdX : ExpMask
  kuX : ExpMask

/-- Write all the debouncer's registers. -/
def State.withDebouncer (s : State) (d : DebouncerRegs) : State :=
  { s with ringG := d.ringG, ringX := d.ringX, wpG := d.wpG, wpX := d.wpX, stateG := d.stateG, prevG := d.prevG,
           kdG := d.kdG, kuG := d.kuG, stateX := d.stateX, prevX := d.prevX, kdX := d.kdX, kuX := d.kuX }

section Wires

variable (s : State) (d : DebouncerRegs)

/-- The events of a MAP come from the buses, the configuration inputs and the mapper's registers. -/
@[simp] theorem mapEvents_withDebouncer (m : BankMode) : (s.withDebouncer d).mapEvents m = s.mapEvents m := rfl

/-- Flagging notes commutes with a write of the debouncer's registers: it reads and writes `STATUS` alone. -/
theorem flagNotes_withDebouncer (ev : List NoteEvent) :
    (s.withDebouncer d).flagNotes ev = (s.flagNotes ev).withDebouncer d := by
  unfold State.flagNotes
  split <;> rfl

/-- A MAP's commit neither reads nor writes the debouncer's registers. -/
theorem commitMap_withDebouncer (m : BankMode) :
    (s.withDebouncer d).commitMap m = (s.commitMap m).withDebouncer d := by
  simp only [State.commitMap, mapEvents_withDebouncer, ← flagNotes_withDebouncer]
  rfl

/-- GESTURE neither reads nor writes the debouncer's registers: its procedure sees the gesture registers and the
buses. -/
theorem exec_gesture_withDebouncer {t : State} (h : exec .gesture s = .next t) :
    exec .gesture (s.withDebouncer d) = .next (t.withDebouncer d) := by
  cases h; rfl

/-- A MAP of any mode neither reads nor writes the debouncer's registers. -/
theorem exec_map_withDebouncer {i : Instr} {m : BankMode} (hi : (i, m) ∈ mapCommands) {t : State}
    (h : exec i s = .next t) : exec i (s.withDebouncer d) = .next (t.withDebouncer d) := by
  rw [exec_map hi] at h ⊢
  cases h
  rw [commitMap_withDebouncer]

/-- A command that takes its operands from the buses commutes with a write of the debouncer's registers. -/
theorem exec_busCommand_withDebouncer {i : Instr} (hi : i ∈ [Instr.gesture, .mapOff, .mapInt, .mapExt]) {t : State}
    (h : exec i s = .next t) : exec i (s.withDebouncer d) = .next (t.withDebouncer d) := by
  simp only [List.mem_cons, List.not_mem_nil, or_false] at hi
  rcases hi with rfl | rfl | rfl | rfl
  · exact exec_gesture_withDebouncer s d h
  · exact exec_map_withDebouncer s d (m := .off) (by simp [mapCommands]) h
  · exact exec_map_withDebouncer s d (m := .internal) (by simp [mapCommands]) h
  · exact exec_map_withDebouncer s d (m := .external) (by simp [mapCommands]) h

end Wires

/-- Settles O45: the twelve registers are written as one group, with which GESTURE and each MAP commute. -/
theorem noWireFromDebouncer : Obligations.NoWireFromDebouncer :=
  fun _ s _ rg rx wg wx vg pg dg ug vx px dx ux hi h =>
    exec_busCommand_withDebouncer s ⟨rg, rx, wg, wx, vg, pg, dg, ug, vx, px, dx, ux⟩ hi h

end Sys2Proof.Machine
end

section
/-! SUPPORT. A port's work as equations, one for each thing its word can be, and a cycle without `RST` as the sequence
of the two ports (spec/20_memory.md R56; spec/30_encoding.md R70, R74). -/

namespace Sys2Proof.Machine

/-- An idle port does nothing (30_encoding R70). -/
@[simp] theorem runPort_idle (p : Port) (s : State) : runPort p none s = .next s := rfl

/-- A legal word runs the command it decodes to (30_encoding R74). -/
theorem runPort_of_legal {p : Port} {w : Word} {i : Instr} (h : decode p w = .legal i) (s : State) :
    runPort p (some w) s = exec i s := by
  simp only [runPort, runWord, h]

/-- An illegal word raises Illegal with its cause (60_exceptions R221). -/
theorem runPort_of_illegal {p : Port} {w : Word} {c : Cause} (h : decode p w = .illegal c) (s : State) :
    runPort p (some w) s = .next (raiseIllegal c s) := by
  simp only [runPort, runWord, h]

/-- Without `RST` a step is the consumer port's work, the producer port's on the state it left, and the next pins
(20_memory R56). -/
theorem step_of_rst_low {s : State} (h : s.pins.rst = false) :
    step s = andThen (runPort .consumer s.pins.ccmd s) fun t =>
      andThen (runPort .producer s.pins.pcmd t) fun u => .next (advanceCycle u) := by
  have hcycle : runCycle s = runCommands s := if_neg (by simp [h])
  rw [step, cycle, hcycle, runCommands, andThen_assoc]

/-- Settles O49: the sequence of the two ports, with each port's work read off from what it carries. -/
theorem stepRunsConsumerThenProducer : Obligations.StepRunsConsumerThenProducer := by
  refine ⟨fun p w s => ⟨fun i h => runPort_of_legal h s, fun c h => runPort_of_illegal h s⟩, fun s hrst => ?_⟩
  rw [step_of_rst_low hrst]
  refine ⟨rfl, ?both, ?consumerOnly, ?producerOnly, ?idle⟩
  case both =>
    intro wc wp i j hc hp hi hj
    simp only [hc, hp, runPort_of_legal hi, runPort_of_legal hj]
  case consumerOnly =>
    intro w i hc hp hi
    simp only [hc, hp, runPort_of_legal hi, runPort_idle, andThen_of_next]
  case producerOnly =>
    intro w i hc hp hi
    simp only [hc, hp, runPort_idle, andThen_of_next, runPort_of_legal hi]
  case idle =>
    intro hc hp
    simp only [hc, hp, runPort_idle, andThen_of_next]

end Sys2Proof.Machine
end

section
/-! SUPPORT. Decode and encode agree: a legal word has its unused fields 0, and the fields that are left name its
command and make its word (spec/30_encoding.md R71 to R74). -/

namespace Sys2Proof

/-- Every command's word has the properties that Laws proves command by command (30_encoding R71, R74, R75). -/
theorem ownPort : ∀ i : Instr, Laws.OwnPort.Statement i
  | .nop => Laws.OwnPort.nop
  | .sampleG => Laws.OwnPort.sampleG
  | .sampleX => Laws.OwnPort.sampleX
  | .readG => Laws.OwnPort.readG
  | .readX => Laws.OwnPort.readX
  | .calcG => Laws.OwnPort.calcG
  | .calcX => Laws.OwnPort.calcX
  | .gesture => Laws.OwnPort.gesture
  | .mapOff => Laws.OwnPort.mapOff
  | .mapInt => Laws.OwnPort.mapInt
  | .mapExt => Laws.OwnPort.mapExt
  | .clrstat => Laws.OwnPort.clrstat

/-- A command's own port decodes its word to it (30_encoding R74). -/
theorem decode_encode (i : Instr) : decode i.port (encode i) = .legal i :=
  (ownPort i).2.1

/-- Any other port than its own rejects a command's word with cause PORT (30_encoding R75). -/
theorem decode_encode_of_port_ne {p : Port} {i : Instr} (h : i.port ≠ p) :
    decode p (encode i) = .illegal .port := by
  obtain ⟨-, -, ⟨hport, hother⟩ | ⟨hport, hother⟩⟩ := ownPort i
  · cases p with
    | producer => exact hother
    | consumer => exact absurd hport h
  · cases p with
    | producer => exact absurd hport h
    | consumer => exact hother

/-- A port decodes a command's word to a legal one only when it is the command's own port. -/
theorem port_of_decode_encode {p : Port} {i j : Instr} (h : decode p (encode i) = .legal j) : i.port = p := by
  by_contra hne
  rw [decode_encode_of_port_ne hne] at h
  cases h

/-- A word without a cause has the fields that its opcode does not use at 0 (30_encoding R73). -/
theorem unused_fields_zero {p : Port} {w : Word} (h : illegalCause p w = none) :
    (usesCh (fieldOp w) = false → fieldCh w = 0#1) ∧ (usesMode (fieldOp w) = false → fieldMode w = 0#2) := by
  cases p with
  | producer =>
    have hw : w = 0x1000#16 ∨ w = 0x1800#16 := by
      by_contra hn
      simp [illegalCause, isSampleWord, hn] at h
    rcases hw with rfl | rfl <;> decide
  | consumer =>
    have hstray : strayField w = false := by
      rw [← Bool.not_eq_true]
      intro hset
      simp only [illegalCause, hset] at h
      split_ifs at h
    simp only [strayField, Bool.or_eq_false_iff, Bool.and_eq_false_imp, Bool.not_eq_true', bne_eq_false_iff_eq]
      at hstray
    exact ⟨hstray.1.2, hstray.2⟩

/-- The fields that name a command make its word, where those that the opcode does not use are 0
(30_encoding R72, R73). -/
theorem packF1_eq_encode {op : BitVec 4} {ch : BitVec 1} {mode : BitVec 2} {i : Instr}
    (hch : usesCh op = false → ch = 0#1) (hmode : usesMode op = false → mode = 0#2)
    (h : instrOfFields op ch mode = some i) : packF1 op ch mode 0 = encode i := by
  have hall : ∀ (op : BitVec 4) (ch : BitVec 1) (mode : BitVec 2), (usesCh op = false → ch = 0#1) →
      (usesMode op = false → mode = 0#2) →
      ∀ j ∈ instrOfFields op ch mode, packF1 op ch mode 0 = encode j := by decide
  exact hall op ch mode hch hmode i h

/-- A word that a port decodes to a command is that command's encoding (30_encoding R74). -/
theorem eq_encode_of_decode {p : Port} {w : Word} {i : Instr} (h : decode p w = .legal i) : w = encode i := by
  obtain ⟨hcause, hfields⟩ := (decode_legal_iff p w i).1 h
  obtain ⟨hch, hmode⟩ := unused_fields_zero hcause
  calc w = packF1 (fieldOp w) (fieldCh w) (fieldMode w) 0 :=
        eq_packF1_of_rsv_zero w (fieldRsv_of_no_cause hcause)
    _ = encode i := packF1_eq_encode hch hmode hfields

/-- The words that a port decodes to a command: the command's own, on the command's own port. -/
theorem decode_eq_legal_iff (p : Port) (w : Word) (i : Instr) :
    decode p w = .legal i ↔ i.port = p ∧ w = encode i := by
  constructor
  · intro h
    obtain rfl := eq_encode_of_decode h
    exact ⟨port_of_decode_encode h, rfl⟩
  · rintro ⟨rfl, rfl⟩
    exact decode_encode i

/-- Settles O2: a legal word is rebuilt from its fields, and each command's word decodes on its own port alone. -/
theorem decodeEncodeAgree : Obligations.DecodeEncodeAgree := by
  intro p w i
  rw [decode_eq_legal_iff, Instr.wellFormedOn, beq_iff_eq]

/-- The twelve commands, in the order of 30_encoding R74. -/
def commands : List Instr :=
  [.nop, .sampleG, .sampleX, .readG, .readX, .calcG, .calcX, .gesture, .mapOff, .mapInt, .mapExt, .clrstat]

/-- No command is missing from the list. -/
theorem mem_commands (i : Instr) : i ∈ commands := by
  cases i <;> decide

/-- The row of a command in the list of legal words: its port, its word and itself (30_encoding R74). -/
def legalRow (i : Instr) : Port × Word × Instr :=
  (i.port, encode i, i)

/-- The rows of the legal words are those that the decoder takes for legal. -/
theorem mem_legalRows_iff (p : Port) (w : Word) (i : Instr) :
    (p, w, i) ∈ commands.map legalRow ↔ decode p w = .legal i := by
  rw [decode_eq_legal_iff, List.mem_map]
  constructor
  · rintro ⟨j, -, hrow⟩
    cases hrow
    exact ⟨rfl, rfl⟩
  · rintro ⟨rfl, rfl⟩
    exact ⟨i, mem_commands i, rfl⟩

/-- Settles O1: the rows that the statement writes out are those of the twelve commands. -/
theorem legalWordsAreTheTwelve : Obligations.LegalWordsAreTheTwelve := by
  intro p w i
  rw [← mem_legalRows_iff]
  have hrows : commands.map legalRow =
      [(Port.consumer, 0x0000#16, Instr.nop), (.producer, 0x1000#16, .sampleG), (.producer, 0x1800#16, .sampleX),
        (.consumer, 0x2000#16, .readG), (.consumer, 0x2800#16, .readX), (.consumer, 0x3000#16, .calcG),
        (.consumer, 0x3800#16, .calcX), (.consumer, 0x4000#16, .gesture), (.consumer, 0x5000#16, .mapOff),
        (.consumer, 0x5200#16, .mapInt), (.consumer, 0x5400#16, .mapExt), (.consumer, 0x6000#16, .clrstat)] := by
    decide
  rw [hrows]

/-- Settles O4: each of the words is its command's row in the list of legal words. -/
theorem sampleWordsDecode : Obligations.SampleWordsDecode := by
  have hrow : ∀ {p w i}, (p, w, i) ∈ commands.map legalRow → decode p w = .legal i :=
    (mem_legalRows_iff _ _ _).1
  exact ⟨hrow (by decide), hrow (by decide), hrow (by decide), hrow (by decide), hrow (by decide),
    hrow (by decide)⟩

end Sys2Proof
end

section
/-! SUPPORT. What a word on a port leads to, and the pins of a cycle: a word on the wrong port, a command presented
on its own port, and the pins that a step takes up (spec/30_encoding.md R70, R75; log entries 2, 4 and 7). -/

namespace Sys2Proof.Machine

section Illegal

variable (c : Cause) (s : State)

@[simp] theorem raiseIllegal_illegalFlag : (raiseIllegal c s).illegalFlag = true :=
  setStatusFields_illegalFlag ..

@[simp] theorem raiseIllegal_noteOor : (raiseIllegal c s).noteOor = s.noteOor :=
  setStatusFields_noteOor ..

/-- The first cause stays: a later one is recorded only while `ILLEGAL` is 0 (60_exceptions R221). -/
@[simp] theorem raiseIllegal_icause :
    (raiseIllegal c s).icause = if s.illegalFlag then s.icause else causeCode c :=
  setStatusFields_icause ..

/-- Raising Illegal writes no register but `STATUS` (60_exceptions R221). -/
theorem raiseIllegal_frame : raiseIllegal c s = { s with status := (raiseIllegal c s).status } := rfl

/-- A port with an illegal word raises Illegal with the word's cause (60_exceptions R221). -/
theorem runWord_of_illegal {p : Port} {w : Word} (h : decode p w = .illegal c) :
    runWord p w s = .next (raiseIllegal c s) :=
  runPort_of_illegal h s

end Illegal

/-- The two SAMPLE words (30_encoding R75). -/
theorem isSampleWord_iff (w : Word) : isSampleWord w = true ↔ w = 0x1000#16 ∨ w = 0x1800#16 := by
  simp only [isSampleWord, Bool.or_eq_true, beq_iff_eq]

/-- The consumer port rejects a SAMPLE word with cause PORT (30_encoding R75). -/
theorem decode_consumer_of_sampleWord {w : Word} (h : isSampleWord w = true) :
    decode .consumer w = .illegal .port :=
  (decode_illegal_iff ..).2 (if_pos h)

/-- The producer port rejects every word but the SAMPLE words with cause PORT (30_encoding R75). -/
theorem decode_producer_of_not_sampleWord {w : Word} (h : ¬ isSampleWord w = true) :
    decode .producer w = .illegal .port :=
  (decode_illegal_iff ..).2 (if_neg h)

/-- Settles O5: in both cases the decoder's cause is PORT, and raising Illegal is all that the port does. -/
theorem wrongPortRaisesPortCause : Obligations.WrongPortRaisesPortCause := by
  intro p w s hwrong
  have hport : decode p w = .illegal .port := by
    rcases hwrong with ⟨rfl, hw⟩ | ⟨rfl, hw⟩
    · exact decode_consumer_of_sampleWord ((isSampleWord_iff w).2 hw)
    · exact decode_producer_of_not_sampleWord (by rw [isSampleWord_iff]; exact not_or.2 hw)
  exact ⟨_, runWord_of_illegal .port s hport, raiseIllegal_illegalFlag _ s, raiseIllegal_noteOor _ s,
    fun hclear => by rw [raiseIllegal_icause, hclear]; rfl,
    fun hset => by rw [raiseIllegal_icause, hset]; rfl, raiseIllegal_frame _ s⟩

section Presented

/-- A word given by its number in the opcode table's 16 bits is that word (log entry 15). -/
@[simp] theorem tableWord_toNat (w : Word) : tableWord 16 w.toNat = w := by
  rw [tableWord, Nat.mod_eq_of_lt w.isLt, BitVec.ofNat_toNat, BitVec.setWidth_eq]

/-- The commands whose words are SAMPLE words are those of the producer port (20_memory R55). -/
theorem isSampleWord_encode_iff (i : Instr) : isSampleWord (encode i) = true ↔ i.port = .producer := by
  cases i <;> decide

variable {i : Instr} (p : Pins)

/-- A producer command is presented on the producer port, the other idle (log entry 7). -/
theorem present_encode_of_producer (h : i.port = .producer) :
    p.present (encode i) = { p with rst := false, pcmd := some (encode i), ccmd := none } :=
  if_pos ((isSampleWord_encode_iff i).2 h)

/-- A consumer command is presented on the consumer port, the other idle (log entry 7). -/
theorem present_encode_of_consumer (h : i.port = .consumer) :
    p.present (encode i) = { p with rst := false, pcmd := none, ccmd := some (encode i) } :=
  if_neg (by simp [isSampleWord_encode_iff, h])

/-- A step with one command on its own port, the other port idle and `RST` low, runs that command. -/
theorem step_of_present {s : State} (h : s.pins = p.present (encode i)) :
    step s = andThen (exec i s) fun t => .next (advanceCycle t) := by
  cases hport : i.port with
  | producer =>
    rw [present_encode_of_producer p hport] at h
    have hdecode : decode .producer (encode i) = .legal i := hport ▸ decode_encode i
    rw [step_of_rst_low (by rw [h])]
    simp only [h, runPort_idle, andThen_of_next, runPort_of_legal hdecode]
  | consumer =>
    rw [present_encode_of_consumer p hport] at h
    have hdecode : decode .consumer (encode i) = .legal i := hport ▸ decode_encode i
    rw [step_of_rst_low (by rw [h])]
    simp only [h, runPort_idle, andThen_of_next, runPort_of_legal hdecode]

end Presented

/-- Settles O50: the presented word stands alone on its command's own port. -/
theorem presentedWordRuns : Obligations.PresentedWordRuns := by
  intro i s
  apply step_of_present s.pins
  rw [State.withFetchWord, State.withPins_pins, tableWord_toNat]

section NextPins

/-- A port writes no input, idle, illegal word or command (10_state R27). -/
theorem runPort_keeps_inputs {p : Port} {c : Option Word} {s t : State} (h : runPort p c s = .next t) :
    t.pins = s.pins ∧ t.upcoming = s.upcoming := by
  rcases runPort_cases h with rfl | ⟨k, rfl⟩ | ⟨i, hexec⟩
  · exact ⟨rfl, rfl⟩
  · exact ⟨rfl, rfl⟩
  · exact (exec_keeps_inputs hexec).2

/-- A step ends with the next pins of a state that has the inputs it began with. -/
theorem step_ends_with_advanceCycle {s t : State} (h : step s = .next t) :
    ∃ v, v.pins = s.pins ∧ v.upcoming = s.upcoming ∧ t = advanceCycle v := by
  rcases step_cases h with ⟨-, rfl⟩ | ⟨-, u, v, hu, hv, rfl⟩
  · exact ⟨resetAction s, rfl, rfl, rfl⟩
  · obtain ⟨hupins, huupcoming⟩ := runPort_keeps_inputs hu
    obtain ⟨hvpins, hvupcoming⟩ := runPort_keeps_inputs hv
    exact ⟨v, hvpins.trans hupins, hvupcoming.trans huupcoming, rfl⟩

end NextPins

/-- Settles O51: no part of a step writes the inputs before the passage to the next cycle, which writes them
alone. -/
theorem stepTakesUpNextPins : Obligations.StepTakesUpNextPins := by
  constructor
  · intro s t h
    obtain ⟨v, hpins, hupcoming, rfl⟩ := step_ends_with_advanceCycle h
    rw [advanceCycle_eq, hpins, hupcoming]
    exact ⟨rfl, rfl⟩
  · intro s
    rw [advanceCycle_eq]

end Sys2Proof.Machine
end

section
/-! SUPPORT. Which bits of the buses a command reads: its operands agree on pins that agree on the bits of its row,
and with the same operands it does the same (spec/30_encoding.md R76). -/

namespace Sys2Proof.Machine

/-- Buses with the same low 4 bits carry the same expansion operand (30_encoding R76). -/
theorem expBits_eq_of_mod_eq {v w : Word} (h : v.toNat % 16 = w.toNat % 16) : expBits v = expBits w := by
  apply BitVec.eq_of_toNat_eq
  simpa [expBits, BitVec.extractLsb'_toNat] using h

/-- Pins that carry the same operands and configuration inputs for a MAP in mode `m`: the expansion operands are
External mode's alone (30_encoding R76). -/
structure MapPinsAgree (m : BankMode) (q p : Pins) : Prop where
  d0 : q.d0 = p.d0
  d1 : q.d1 = p.d1
  d2 : q.d2 = p.d2
  cfg : q.cfg = p.cfg
  xkd : m = .external → expBits q.d3 = expBits p.d3
  xku : m = .external → expBits q.d4 = expBits p.d4
  xst : m = .external → expBits q.d5 = expBits p.d5

section MapPins

variable {s : State} {q : Pins} {m : BankMode}

/-- A MAP's selectors are a function of its operands and of `CFG_EXP_EN`. -/
theorem selectors_withPins (h : MapPinsAgree m q s.pins) : (s.withPins q).selectors m = s.selectors m := by
  cases m with
  | off => rfl
  | internal =>
    simp only [State.selectors, State.opKd, State.opKu, State.opSt, State.withPins_pins, h.d0, h.d1, h.d2]
  | external =>
    have hen : (s.withPins q).cfgExpEn = s.cfgExpEn := congrArg ConfigInputs.expEn h.cfg
    cases henabled : s.cfgExpEn with
    | true =>
      rw [selectors_external_enabled henabled, selectors_external_enabled (hen.trans henabled)]
      simp only [State.opXkd, State.opXku, State.opXst, State.withPins_pins, h.xkd rfl, h.xku rfl, h.xst rfl]
    | false => rw [selectors_external_disabled henabled, selectors_external_disabled (hen.trans henabled)]

/-- A MAP's working bank comes from the mapper's registers, not from the pins. -/
@[simp] theorem entryBank_withPins (s : State) (q : Pins) (m : BankMode) :
    (s.withPins q).entryBank m = s.entryBank m := rfl

/-- A MAP's bank is a function of its operands and the mapper's registers. -/
theorem mapBank_withPins (h : MapPinsAgree m q s.pins) : (s.withPins q).mapBank m = s.mapBank m := by
  simp only [State.mapBank, selectors_withPins h, entryBank_withPins]

/-- A MAP's events are a function of its operands, the base notes and the mapper's registers. -/
theorem mapEvents_withPins (h : MapPinsAgree m q s.pins) : (s.withPins q).mapEvents m = s.mapEvents m := by
  simp only [State.mapEvents, selectors_withPins h, entryBank_withPins, State.cfgBaseNote, State.cfgBankNoteBase,
    State.opKd, State.opKu, State.withPins_pins, h.d0, h.d1, h.cfg]

/-- A MAP's event count is a function of its operands, the base notes and the mapper's registers, the free value
too (00_scope R12). -/
theorem eventCount_withPins (h : MapPinsAgree m q s.pins) (n : Nat) :
    (s.withPins q).eventCount m n = s.eventCount m n := by
  simp only [State.eventCount, State.freeEventCount, selectors_withPins h, entryBank_withPins, State.cfgBaseNote,
    State.cfgBankNoteBase, State.opKd, State.opKu, State.opSt, State.withPins_pins, h.d0, h.d1, h.d2, h.cfg]

/-- Flagging notes commutes with a change of the pins: it reads and writes `STATUS` alone. -/
theorem flagNotes_withPins (s : State) (q : Pins) (ev : List NoteEvent) :
    (s.withPins q).flagNotes ev = (s.flagNotes ev).withPins q := by
  unfold State.flagNotes
  split <;> rfl

/-- A MAP's commit is the same on pins that carry the same operands, and keeps the pins. -/
theorem commitMap_withPins (h : MapPinsAgree m q s.pins) :
    (s.withPins q).commitMap m = (s.commitMap m).withPins q := by
  simp only [State.commitMap, mapEvents_withPins h, mapBank_withPins h, eventCount_withPins h,
    ← flagNotes_withPins]
  rfl

end MapPins

/-- The pins agree for a MAP command's mode when they agree on the bits of its row (30_encoding R76). -/
theorem mapPinsAgree_of_row {i : Instr} {m : BankMode} {q p : Pins} (hi : (i, m) ∈ mapCommands)
    (hgrid : q.d0 = p.d0 ∧ q.d1 = p.d1 ∧ q.d2 = p.d2) (hcfg : q.cfg = p.cfg)
    (hexp : i = .mapExt → q.d3.toNat % 16 = p.d3.toNat % 16 ∧ q.d4.toNat % 16 = p.d4.toNat % 16 ∧
      q.d5.toNat % 16 = p.d5.toNat % 16) : MapPinsAgree m q p := by
  obtain ⟨h0, h1, h2⟩ := hgrid
  have hext : m = .external → i = .mapExt := by
    rintro rfl
    simpa [mapCommands] using hi
  exact ⟨h0, h1, h2, hcfg, fun hm => expBits_eq_of_mod_eq (hexp (hext hm)).1,
    fun hm => expBits_eq_of_mod_eq (hexp (hext hm)).2.1, fun hm => expBits_eq_of_mod_eq (hexp (hext hm)).2.2⟩

/-- The MAP commands (30_encoding R74). -/
theorem mem_of_mapCommands {i : Instr} {m : BankMode} (h : (i, m) ∈ mapCommands) :
    i ∈ [Instr.mapOff, .mapInt, .mapExt] :=
  List.mem_map_of_mem (f := Prod.fst) h

/-- GESTURE does the same on pins with the same grid operands, and keeps the pins. -/
theorem execGesture_withPins {s : State} {q : Pins} (h0 : q.d0 = s.pins.d0) (h1 : q.d1 = s.pins.d1)
    (h2 : q.d2 = s.pins.d2) {g : GestureRegs} (hg : g = gestureStep s.gestureRegs s.opKd s.opKu s.opSt) :
    exec .gesture (s.withPins q) = .next ((s.withGesture g.gstate g.gact g.relkey g.gout).withPins q) := by
  have hstep : gestureStep (s.withPins q).gestureRegs q.d0 q.d1 q.d2 = g := by
    rw [h0, h1, h2, hg]
    rfl
  rw [← hstep]
  rfl

/-- Settles O43: command by command; SAMPLE, GESTURE and MAP have the same operands, and the other commands read
no bus. -/
theorem unusedBusBitsAreIgnored : Obligations.UnusedBusBitsAreIgnored := by
  intro i s t q h hpdG hpdX hgrid hexp hcfg
  rcases exec_next_cases h with ⟨rfl, rfl⟩ | ⟨rfl, rfl⟩ | ⟨rfl, hl, hj, rfl⟩ | ⟨rfl, hl, hj, rfl⟩ |
    ⟨rfl, hl, rfl⟩ | ⟨rfl, hl, rfl⟩ | ⟨rfl, rfl⟩ | ⟨rfl, rfl⟩ | ⟨rfl, g, hg, rfl⟩ | ⟨m, hm, rfl⟩
  iterate 2 rfl
  · have hraw : (s.withPins q).rawG = s.rawG := hpdG rfl
    exact (execSampleG_next_iff _ _).2 ⟨hl, hj, by rw [hraw]; rfl⟩
  · have hraw : (s.withPins q).rawX = s.rawX := expBits_eq_of_mod_eq (hpdX rfl)
    exact (execSampleX_next_iff _ _).2 ⟨hl, hj, by rw [hraw]; rfl⟩
  · exact (execReadG_next_iff _ _).2 ⟨hl, rfl⟩
  · exact (execReadX_next_iff _ _).2 ⟨hl, rfl⟩
  iterate 2 rfl
  · obtain ⟨h0, h1, h2⟩ := hgrid (by simp)
    exact execGesture_withPins h0 h1 h2 hg
  · have hmap := mem_of_mapCommands hm
    have hagree := mapPinsAgree_of_row hm (hgrid (List.mem_cons_of_mem _ hmap)) (hcfg hmap) hexp
    rw [exec_map hm, commitMap_withPins hagree]

end Sys2Proof.Machine
end

section
/-! SUPPORT. CALC's edge sets and the registers they come from: their laws bit by bit, what a CALC of a settled channel
does, who writes the stable and the previous state, and the two channels as groups of registers that the other
channel's commands neither read nor write (spec/40_debounce.md R104, R105, R107, R109). -/

namespace Sys2Proof.Machine

section EdgeSets

variable {w : Nat} (prev cur : BitVec w)

/-- Without a change there is no keydown edge (40_debounce R105). -/
@[simp] theorem keydownEdges_self : keydownEdges cur cur = 0#w := by
  rw [keydownEdges, BitVec.xor_self, BitVec.zero_and]

/-- Without a change there is no keyup edge (40_debounce R105). -/
@[simp] theorem keyupEdges_self : keyupEdges cur cur = 0#w := by
  rw [keyupEdges, BitVec.xor_self, BitVec.zero_and]

/-- The edges are the changed keys, of either kind (40_debounce R107). -/
theorem keydownEdges_or_keyupEdges : keydownEdges prev cur ||| keyupEdges prev cur = prev ^^^ cur := by
  refine BitVec.eq_of_getLsbD_eq fun i _ => ?_
  rw [BitVec.getLsbD_or, BitVec.getLsbD_xor, keydownEdges_getLsbD, keyupEdges_getLsbD]
  cases prev.getLsbD i <;> cases cur.getLsbD i <;> rfl

/-- A key with a keyup edge was held before (40_debounce R107). -/
theorem keyupEdges_and_prev : keyupEdges prev cur &&& prev = keyupEdges prev cur := by
  rw [keyupEdges, BitVec.and_assoc, BitVec.and_self]

/-- A key with a keydown edge was not held before (40_debounce R107). -/
theorem keydownEdges_and_prev : keydownEdges prev cur &&& prev = 0#w := by
  refine BitVec.eq_of_getLsbD_eq fun i _ => ?_
  rw [BitVec.getLsbD_and, keydownEdges_getLsbD, BitVec.getLsbD_zero]
  cases prev.getLsbD i <;> simp

/-- The six laws of the edge sets against the old previous and the current state, at any width (40_debounce R107). -/
theorem edgeSet_laws :
    keydownEdges prev cur &&& keyupEdges prev cur = 0#w ∧
      keydownEdges prev cur ||| keyupEdges prev cur = prev ^^^ cur ∧
      keydownEdges prev cur &&& cur = keydownEdges prev cur ∧
      keyupEdges prev cur &&& prev = keyupEdges prev cur ∧
      keydownEdges prev cur &&& prev = 0#w ∧ keyupEdges prev cur &&& cur = 0#w :=
  have saved := edgeLaws_of_calc prev cur
  ⟨saved.disjoint, keydownEdges_or_keyupEdges prev cur, saved.down_held, keyupEdges_and_prev prev cur,
    keydownEdges_and_prev prev cur, saved.up_released⟩

end EdgeSets

/-- Settles O14: CALC's write is the one the rule names, and its words belong to the consumer port. -/
theorem calcDerivesEdges : Obligations.CalcDerivesEdges :=
  ⟨fun _ => rfl, fun _ => rfl, decode_encode .calcG, decode_encode .calcX,
    decode_encode_of_port_ne (i := .calcG) (by decide), decode_encode_of_port_ne (i := .calcX) (by decide)⟩

/-- Settles O16: the laws at the width of each channel. -/
theorem edgeSetLaws : Obligations.EdgeSetLaws := by
  refine ⟨fun s t h => ?grid, fun s t h => ?expansion⟩
  case grid =>
    rw [(execCalcG_next_iff s t).1 h]
    exact edgeSet_laws s.prevG s.stateG
  case expansion =>
    rw [(execCalcX_next_iff s t).1 h]
    exact edgeSet_laws s.prevX s.stateX

section Settled

variable {s : State}

/-- CALC.G with `PREV_G = STATE_G` clears the edge registers and changes nothing else (40_debounce R105). -/
theorem exec_calcG_of_settled (h : s.prevG = s.stateG) :
    exec .calcG s = .next { s with kdG := 0#16, kuG := 0#16 } := by
  calc exec .calcG s
      = .next (s.withEdgesG (keydownEdges s.prevG s.stateG) (keyupEdges s.prevG s.stateG) s.stateG) :=
        (execCalcG_next_iff s _).2 rfl
    _ = .next (s.withEdgesG 0#16 0#16 s.prevG) := by rw [← h, keydownEdges_self, keyupEdges_self]
    _ = .next { s with kdG := 0#16, kuG := 0#16 } := rfl

/-- CALC.X with `PREV_X = STATE_X` clears the edge registers and changes nothing else (40_debounce R105). -/
theorem exec_calcX_of_settled (h : s.prevX = s.stateX) :
    exec .calcX s = .next { s with kdX := 0#4, kuX := 0#4 } := by
  calc exec .calcX s
      = .next (s.withEdgesX (keydownEdges s.prevX s.stateX) (keyupEdges s.prevX s.stateX) s.stateX) :=
        (execCalcX_next_iff s _).2 rfl
    _ = .next (s.withEdgesX 0#4 0#4 s.prevX) := by rw [← h, keydownEdges_self, keyupEdges_self]
    _ = .next { s with kdX := 0#4, kuX := 0#4 } := rfl

end Settled

/-- A MAP writes neither channel's stable or previous state. -/
theorem commitMap_keeps_stable (s : State) (m : BankMode) :
    (s.commitMap m).stateG = s.stateG ∧ (s.commitMap m).prevG = s.prevG ∧
      (s.commitMap m).stateX = s.stateX ∧ (s.commitMap m).prevX = s.prevX := by
  obtain ⟨v, hv⟩ := commitMap_eq s m
  rw [hv]
  exact ⟨rfl, rfl, rfl, rfl⟩

/-- Only READ.c writes `STATE_c` and only CALC.c writes `PREV_c` (40_debounce R105). -/
theorem exec_keeps_stable {i : Instr} {s t : State} (h : exec i s = .next t) :
    (i ≠ .readG → t.stateG = s.stateG) ∧ (i ≠ .calcG → t.prevG = s.prevG) ∧
      (i ≠ .readX → t.stateX = s.stateX) ∧ (i ≠ .calcX → t.prevX = s.prevX) := by
  rcases exec_next_cases h with ⟨-, rfl⟩ | ⟨-, rfl⟩ | ⟨-, -, -, rfl⟩ | ⟨-, -, -, rfl⟩ | ⟨hi, -, rfl⟩ |
    ⟨hi, -, rfl⟩ | ⟨hi, rfl⟩ | ⟨hi, rfl⟩ | ⟨-, g, -, rfl⟩ | ⟨m, -, rfl⟩
  iterate 4 exact ⟨fun _ => rfl, fun _ => rfl, fun _ => rfl, fun _ => rfl⟩
  · exact ⟨fun hne => absurd hi hne, fun _ => rfl, fun _ => rfl, fun _ => rfl⟩
  · exact ⟨fun _ => rfl, fun _ => rfl, fun hne => absurd hi hne, fun _ => rfl⟩
  · exact ⟨fun _ => rfl, fun hne => absurd hi hne, fun _ => rfl, fun _ => rfl⟩
  · exact ⟨fun _ => rfl, fun _ => rfl, fun _ => rfl, fun hne => absurd hi hne⟩
  · exact ⟨fun _ => rfl, fun _ => rfl, fun _ => rfl, fun _ => rfl⟩
  · obtain ⟨hsG, hpG, hsX, hpX⟩ := commitMap_keeps_stable s m
    exact ⟨fun _ => hsG, fun _ => hpG, fun _ => hsX, fun _ => hpX⟩

/-- Settles O15: a CALC leaves its channel settled, and a CALC of a settled channel clears the edges. -/
theorem calcIsIdempotent : Obligations.CalcIsIdempotent := by
  refine ⟨fun s t u h hstate hprev => ?grid, fun s t u h hstate hprev => ?expansion,
    fun _ _ _ h => exec_keeps_stable h⟩
  case grid =>
    have hsettled : t.prevG = t.stateG := by rw [(execCalcG_next_iff s t).1 h]; rfl
    exact ⟨hsettled, exec_calcG_of_settled (hprev.trans (hsettled.trans hstate.symm))⟩
  case expansion =>
    have hsettled : t.prevX = t.stateX := by rw [(execCalcX_next_iff s t).1 h]; rfl
    exact ⟨hsettled, exec_calcX_of_settled (hprev.trans (hsettled.trans hstate.symm))⟩

section Channels

/-- The registers of one debouncer channel, of either width (10_state R21 to R26). -/
structure ChannelRegs (w : Nat) where
  ring : List (BitVec w)
  wp : BitVec 4
  state : BitVec w
  prev : BitVec w
  kd : BitVec w
  ku : BitVec w

/-- Write all registers of channel G. -/
def State.withChannelG (s : State) (c : ChannelRegs 16) : State :=
  { s with ringG := c.ring, wpG := c.wp, stateG := c.state, prevG := c.prev, kdG := c.kd, kuG := c.ku }

/-- Write all registers of channel X. -/
def State.withChannelX (s : State) (c : ChannelRegs 4) : State :=
  { s with ringX := c.ring, wpX := c.wp, stateX := c.state, prevX := c.prev, kdX := c.kd, kuX := c.ku }

variable {i : Instr} {s t : State}

/-- Channel G's commands commute with a write of channel X: the ring test, the operand and the registers that they
write are all outside it (40_debounce R109). -/
theorem exec_commandG_withChannelX (c : ChannelRegs 4) (hi : i = .sampleG ∨ i = .readG ∨ i = .calcG)
    (h : exec i s = .next t) : exec i (s.withChannelX c) = .next (t.withChannelX c) := by
  rcases hi with rfl | rfl | rfl
  · obtain ⟨hlen, hwp, rfl⟩ := (execSampleG_next_iff s t).1 h
    exact (execSampleG_next_iff _ _).2 ⟨hlen, hwp, rfl⟩
  · obtain ⟨hlen, rfl⟩ := (execReadG_next_iff s t).1 h
    exact (execReadG_next_iff _ _).2 ⟨hlen, rfl⟩
  · rw [(execCalcG_next_iff s t).1 h]
    rfl

/-- Channel X's commands commute with a write of channel G (40_debounce R109). -/
theorem exec_commandX_withChannelG (c : ChannelRegs 16) (hi : i = .sampleX ∨ i = .readX ∨ i = .calcX)
    (h : exec i s = .next t) : exec i (s.withChannelG c) = .next (t.withChannelG c) := by
  rcases hi with rfl | rfl | rfl
  · obtain ⟨hlen, hwp, rfl⟩ := (execSampleX_next_iff s t).1 h
    exact (execSampleX_next_iff _ _).2 ⟨hlen, hwp, rfl⟩
  · obtain ⟨hlen, rfl⟩ := (execReadX_next_iff s t).1 h
    exact (execReadX_next_iff _ _).2 ⟨hlen, rfl⟩
  · rw [(execCalcX_next_iff s t).1 h]
    rfl

end Channels

/-- Settles O17: the other channel's registers are written as one group, with which the commands commute. -/
theorem channelsAreIndependent : Obligations.ChannelsAreIndependent :=
  ⟨fun _ _ _ ring wp v p kd ku hi h => exec_commandG_withChannelX ⟨ring, wp, v, p, kd, ku⟩ hi h,
    fun _ _ _ ring wp v p kd ku hi h => exec_commandX_withChannelG ⟨ring, wp, v, p, kd, ku⟩ hi h⟩

end Sys2Proof.Machine
end

section
/-! SUPPORT. The ring as a window on the samples: read from the write pointer round, it is the last `DEPTH` words,
oldest first. Both channels are one parametrised channel here, so that the window's induction stands once
(spec/40_debounce.md R100 to R103). -/

namespace Sys2Proof.Machine

/-- The expansion operand as the number that the low 4 bits of the bus make (30_encoding R76). -/
theorem expBits_eq_ofNat (v : Word) : expBits v = BitVec.ofNat 4 (v.toNat % 16) := by
  apply BitVec.eq_of_toNat_eq
  simp [expBits, BitVec.extractLsb'_toNat]

section Slots

variable {w : Nat}

/-- A bit of the AND over a ring is set exactly when every word of the ring has it (40_debounce R102). -/
theorem andOfRing_getLsbD_iff (ring : List (BitVec w)) {i : Nat} (hi : i < w) :
    (ring.foldl (· &&& ·) (BitVec.allOnes w)).getLsbD i = true ↔ ∀ v ∈ ring, v.getLsbD i = true := by
  rw [foldl_and_getLsbD, BitVec.getLsbD_allOnes, decide_eq_true hi, Bool.true_and, List.all_eq_true]

/-- Every word of a ring of `d` slots has a bit exactly when each slot below `d` holds a word that has it. -/
theorem forall_mem_iff_forall_slot {ring : List (BitVec w)} {d i : Nat} (hlen : ring.length = d) :
    (∀ v ∈ ring, v.getLsbD i = true) ↔ ∀ j, j < d → ∃ v, ring[j]? = some v ∧ v.getLsbD i = true := by
  subst hlen
  constructor
  · exact fun hall j hj => ⟨ring[j], List.getElem?_eq_getElem hj, hall _ (List.getElem_mem hj)⟩
  · intro hslots v hv
    obtain ⟨j, hj, rfl⟩ := List.getElem_of_mem hv
    obtain ⟨u, hu, hbit⟩ := hslots j hj
    rw [List.getElem?_eq_getElem hj] at hu
    cases hu
    exact hbit

/-- Replacing the slot at the pointer and moving the pointer round drops the oldest word of the window and adds the
new one at its end (40_debounce R100, R101). -/
theorem rotate_set_advance {ring : List (BitVec w)} {j : Nat} (hj : j < ring.length) (v : BitVec w) :
    (ring.set j v).rotate ((j + 1) % ring.length) = (ring.rotate j ++ [v]).tail := by
  obtain ⟨before, old, after, rfl, rfl⟩ : ∃ before old after, ring = before ++ old :: after ∧ before.length = j :=
    ⟨ring.take j, ring[j], ring.drop (j + 1), by simp, by simp; omega⟩
  have hlen : ((before ++ old :: after).set before.length v).length = (before ++ old :: after).length :=
    List.length_set
  have hset : (before ++ old :: after).set before.length v = (before ++ [v]) ++ after := by simp
  calc ((before ++ old :: after).set before.length v).rotate
        ((before.length + 1) % (before ++ old :: after).length)
      = ((before ++ [v]) ++ after).rotate (before ++ [v]).length := by
        rw [← hlen, List.rotate_mod, hset, List.length_append, List.length_singleton]
    _ = after ++ (before ++ [v]) := List.rotate_append_length_eq _ _
    _ = (((old :: after) ++ before) ++ [v]).tail := by simp
    _ = ((before ++ old :: after).rotate before.length ++ [v]).tail := by rw [List.rotate_append_length_eq]

/-- The last `d` words are the reset values that are left and the words that have come last (40_debounce R101). -/
theorem lastWords_eq (d : Nat) (raws : List (BitVec w)) :
    lastWords d raws = List.replicate (d - raws.length) 0#w ++ raws.drop (raws.length - d) := by
  rw [lastWords, List.drop_append, List.drop_replicate, List.length_replicate]

/-- All of the last `d` words have a bit exactly when no reset value is left among them and the samples have it
(40_debounce R103). -/
theorem lastWords_all_getLsbD_iff (d : Nat) (raws : List (BitVec w)) (i : Nat) :
    (∀ v ∈ lastWords d raws, v.getLsbD i = true) ↔
      d ≤ raws.length ∧ ∀ r ∈ raws.drop (raws.length - d), r.getLsbD i = true := by
  rw [lastWords_eq, List.forall_mem_append]
  refine and_congr_left fun _ => ?_
  simp [Nat.sub_eq_zero_iff_le]

end Slots

/-- Settles O11: SAMPLE's write is the replacement of the pointer's slot; its words belong to the producer port. -/
theorem sampleWritesOneSlot : Obligations.SampleWritesOneSlot := by
  refine ⟨fun s hd hlen hwp => ?grid, fun s hd hlen hwp => ?expansion, decode_encode .sampleG,
    decode_encode .sampleX, decode_encode_of_port_ne (i := .sampleG) (by decide),
    decode_encode_of_port_ne (i := .sampleX) (by decide)⟩
  case grid =>
    exact ⟨_, (execSampleG_next_iff s _).2 ⟨hlen, hwp, rfl⟩, List.length_set.trans hlen,
      List.getElem?_set_self (hlen ▸ hwp), fun j hj => List.getElem?_set_ne hj.symm,
      advancePointer_toNat hd s.wpG, rfl⟩
  case expansion =>
    exact ⟨_, (execSampleX_next_iff s _).2 ⟨hlen, hwp, rfl⟩, List.length_set.trans hlen,
      (List.getElem?_set_self (hlen ▸ hwp)).trans (congrArg some (expBits_eq_ofNat s.pins.pd)),
      fun j hj => List.getElem?_set_ne hj.symm, advancePointer_toNat hd s.wpX, rfl⟩

/-- Settles O13: READ's value is the AND over the ring, bit by bit; its words belong to the consumer port. -/
theorem readIsTheAndOfAllSlots : Obligations.ReadIsTheAndOfAllSlots := by
  refine ⟨fun s hlen => ?grid, fun s hlen => ?expansion, decode_encode .readG, decode_encode .readX,
    decode_encode_of_port_ne (i := .readG) (by decide), decode_encode_of_port_ne (i := .readX) (by decide)⟩
  case grid =>
    exact ⟨_, (execReadG_next_iff s _).2 ⟨hlen, rfl⟩, rfl,
      fun i hi => (andOfRing_getLsbD_iff s.ringG hi).trans (forall_mem_iff_forall_slot hlen)⟩
  case expansion =>
    exact ⟨_, (execReadX_next_iff s _).2 ⟨hlen, rfl⟩, rfl,
      fun i hi => (andOfRing_getLsbD_iff s.ringX hi).trans (forall_mem_iff_forall_slot hlen)⟩

/-- One debouncer channel: its commands, the registers they work on, how it cuts a raw word, and what the commands and
the reset state make of those registers (40_debounce R100, R102; 70_reset R250). -/
structure Channel (w : Nat) where
  sample : Instr
  read : Instr
  cut : Word → BitVec w
  ring : State → List (BitVec w)
  pointer : State → BitVec 4
  stable : State → BitVec w
  cut_getLsbD : ∀ (r : Word) {i : Nat}, i < w → (cut r).getLsbD i = r.getLsbD i
  ring_initial : ∀ d, ring (State.initial d) = List.replicate d 0#w
  pointer_initial : ∀ d, pointer (State.initial d) = 0#4
  sample_answers : ∀ (s : State) (r : Word), (ring s).length = s.depth → (pointer s).toNat < s.depth →
    ∃ t, exec sample (s.withPins { s.pins with pd := r }) = .next t ∧ t.depth = s.depth ∧
      ring t = (ring s).set (pointer s).toNat (cut r) ∧ pointer t = advancePointer s.depth (pointer s)
  read_answers : ∀ s : State, (ring s).length = s.depth →
    ∃ t, exec read s = .next t ∧ stable t = (ring s).foldl (· &&& ·) (BitVec.allOnes w)

/-- Channel G, as wide as the bus. -/
def gridChannel : Channel 16 where
  sample := .sampleG
  read := .readG
  cut := id
  ring := State.ringG
  pointer := State.wpG
  stable := State.stateG
  cut_getLsbD _ _ _ := rfl
  ring_initial _ := rfl
  pointer_initial _ := rfl
  sample_answers _ _ hlen hwp := ⟨_, (execSampleG_next_iff _ _).2 ⟨hlen, hwp, rfl⟩, rfl, rfl, rfl⟩
  read_answers _ hlen := ⟨_, (execReadG_next_iff _ _).2 ⟨hlen, rfl⟩, rfl⟩

/-- Channel X, as wide as the low 4 bits of the bus. -/
def expansionChannel : Channel 4 where
  sample := .sampleX
  read := .readX
  cut r := BitVec.ofNat 4 (r.toNat % 16)
  ring := State.ringX
  pointer := State.wpX
  stable := State.stateX
  cut_getLsbD r i hi := by simp [← expBits_eq_ofNat, expBits, hi]
  ring_initial _ := rfl
  pointer_initial _ := rfl
  sample_answers s r hlen hwp :=
    ⟨_, (execSampleX_next_iff _ _).2 ⟨hlen, hwp, rfl⟩, rfl,
      congrArg (s.ringX.set s.wpX.toNat) (expBits_eq_ofNat r), rfl⟩
  read_answers _ hlen := ⟨_, (execReadX_next_iff _ _).2 ⟨hlen, rfl⟩, rfl⟩

namespace Channel

variable {w : Nat} (c : Channel w)

/-- SAMPLE of each raw word in turn, on either channel. -/
def sampleMany : List Word → State → Result
  | [], s => .next s
  | r :: rest, s => andThen (exec c.sample (s.withPins { s.pins with pd := r })) (sampleMany rest)

/-- The ring has its slots, the pointer names one of them, and read from there round it holds these words. -/
structure HoldsWindow (s : State) (words : List (BitVec w)) : Prop where
  length_eq : (c.ring s).length = s.depth
  pointer_lt : (c.pointer s).toNat < s.depth
  rotate_eq : (c.ring s).rotate (c.pointer s).toNat = words

variable {c}

/-- At reset the window holds reset values (70_reset R250). -/
theorem holdsWindow_initial {d : Nat} (hd : depthLegal d = true) :
    c.HoldsWindow (State.initial d) (List.replicate d 0#w) where
  length_eq := by rw [c.ring_initial, List.length_replicate]; rfl
  pointer_lt := by rw [c.pointer_initial]; exact ((depthLegal_iff d).1 hd).1
  rotate_eq := by rw [c.pointer_initial, c.ring_initial]; exact List.rotate_zero _

/-- A SAMPLE moves the window on by one word (40_debounce R100, R101). -/
theorem holdsWindow_sample {s : State} {words : List (BitVec w)} (hd : depthLegal s.depth = true)
    (h : c.HoldsWindow s words) (r : Word) :
    ∃ t, exec c.sample (s.withPins { s.pins with pd := r }) = .next t ∧ t.depth = s.depth ∧
      c.HoldsWindow t (words ++ [c.cut r]).tail := by
  obtain ⟨hlen, hwp, rfl⟩ := h
  obtain ⟨t, ht, hdepth, hring, hpointer⟩ := c.sample_answers s r hlen hwp
  refine ⟨t, ht, hdepth, ?length, ?pointer, ?rotate⟩
  case length => rw [hring, List.length_set, hlen, hdepth]
  case pointer => rw [hpointer, hdepth]; exact advancePointer_lt hd _
  case rotate =>
    rw [hring, hpointer, advancePointer_toNat hd, ← hlen]
    exact rotate_set_advance (hlen ▸ hwp) (c.cut r)

/-- A list of SAMPLEs moves the window on by all its words (40_debounce R101). -/
theorem holdsWindow_sampleMany (raws : List Word) {s : State} {words : List (BitVec w)}
    (hd : depthLegal s.depth = true) (h : c.HoldsWindow s words) :
    ∃ t, c.sampleMany raws s = .next t ∧
      c.HoldsWindow t ((words ++ raws.map c.cut).drop raws.length) := by
  induction raws generalizing s words with
  | nil => exact ⟨s, rfl, by simpa using h⟩
  | cons r rest ih =>
    obtain ⟨u, hu, hdepth, hwindow⟩ := holdsWindow_sample hd h r
    obtain ⟨t, ht, hfinal⟩ := ih (hdepth ▸ hd) hwindow
    refine ⟨t, (andThen_next_iff _ _ _).2 ⟨u, hu, ht⟩, ?_⟩
    have hshift : (words ++ [c.cut r]).tail ++ rest.map c.cut = (words ++ (r :: rest).map c.cut).tail := by
      rw [← List.tail_append_of_ne_nil (by simp), List.append_assoc]
      rfl
    rwa [hshift, List.drop_tail] at hfinal

variable (c)

/-- After any samples from reset the ring has its slots and they hold the last words (40_debounce R101). -/
theorem ring_after_sampleMany (raws : List Word) {d : Nat} (hd : depthLegal d = true) :
    ∃ t, c.sampleMany raws (State.initial d) = .next t ∧ (c.ring t).length = t.depth ∧
      (c.ring t).Perm (lastWords d (raws.map c.cut)) := by
  obtain ⟨t, ht, hlen, -, hrotate⟩ := holdsWindow_sampleMany (c := c) raws hd (holdsWindow_initial hd)
  refine ⟨t, ht, hlen, ?_⟩
  rw [lastWords, List.length_map, ← hrotate]
  exact (List.rotate_perm _ _).symm

/-- After any samples from reset and a READ, a key reads as pressed exactly when a full window of samples has it
(40_debounce R103). -/
theorem read_after_sampleMany (raws : List Word) {d i : Nat} (hd : depthLegal d = true) (hi : i < w) :
    ∃ t, andThen (c.sampleMany raws (State.initial d)) (exec c.read) = .next t ∧
      ((c.stable t).getLsbD i = true ↔
        d ≤ raws.length ∧ ∀ r ∈ raws.drop (raws.length - d), r.getLsbD i = true) := by
  obtain ⟨u, hu, hlen, hperm⟩ := c.ring_after_sampleMany raws hd
  obtain ⟨t, ht, hstable⟩ := c.read_answers u hlen
  refine ⟨t, (andThen_next_iff _ _ _).2 ⟨u, hu, ht⟩, ?_⟩
  calc (c.stable t).getLsbD i = true
      ↔ ∀ v ∈ c.ring u, v.getLsbD i = true := by rw [hstable]; exact andOfRing_getLsbD_iff _ hi
    _ ↔ ∀ v ∈ lastWords d (raws.map c.cut), v.getLsbD i = true := by simp only [hperm.mem_iff]
    _ ↔ d ≤ raws.length ∧ ∀ r ∈ raws.drop (raws.length - d), r.getLsbD i = true := by
      rw [lastWords_all_getLsbD_iff, List.length_map, ← List.map_drop, List.forall_mem_map]
      simp only [c.cut_getLsbD _ hi]

end Channel

/-- The grid's list of samples is the one of its channel. -/
theorem sampleManyG_eq (raws : List Word) : sampleManyG raws = gridChannel.sampleMany raws := by
  induction raws with
  | nil => rfl
  | cons r rest ih => funext s; rw [sampleManyG, ih]; rfl

/-- The expansion port's list of samples is the one of its channel. -/
theorem sampleManyX_eq (raws : List Word) : sampleManyX raws = expansionChannel.sampleMany raws := by
  induction raws with
  | nil => rfl
  | cons r rest ih => funext s; rw [sampleManyX, ih]; rfl

/-- Settles O18: the ring is a rotation of the window, which every SAMPLE moves on by one word. -/
theorem ringHoldsTheLastWords : Obligations.RingHoldsTheLastWords := by
  refine ⟨fun d raws hd => ?grid, fun d raws hd => ?expansion⟩
  case grid =>
    obtain ⟨t, ht, -, hperm⟩ := gridChannel.ring_after_sampleMany raws hd
    exact ⟨t, sampleManyG_eq raws ▸ ht, List.map_id raws ▸ hperm⟩
  case expansion =>
    obtain ⟨t, ht, -, hperm⟩ := expansionChannel.ring_after_sampleMany raws hd
    exact ⟨t, sampleManyX_eq raws ▸ ht, hperm⟩

/-- Settles O19: READ takes the AND of the window's words, and a reset value has no bit set. -/
theorem pressNeedsFullWindow : Obligations.PressNeedsFullWindow := by
  refine ⟨fun d raws i hd hi => ?grid, fun d raws i hd hi => ?expansion⟩
  case grid =>
    rw [sampleManyG_eq]
    exact gridChannel.read_after_sampleMany raws hd hi
  case expansion =>
    rw [sampleManyX_eq]
    exact expansionChannel.read_after_sampleMany raws hd hi

end Sys2Proof.Machine
end

section
/-! SUPPORT. GESTURE as equations, one for each step of its procedure that can decide a poll: no edge, the chord, the
armed-release check, and the table walk with and without a matching row (spec/41_gesture.md R130). -/

namespace Sys2Proof.Machine

section Procedure

variable {g : GestureRegs} {kd ku st : GridMask}

/-- Step 1 decides a poll exactly when it has no edge (41_gesture R134). -/
theorem no_edge_iff : (kd == 0#16 && ku == 0#16) = true ↔ ¬(kd ≠ 0#16 ∨ ku ≠ 0#16) := by
  simp

/-- Step 2 decides a poll with an edge exactly on the chord, while another action than B_DOWN is in force
(41_gesture R135). -/
theorem chord_iff (a : ActionCode) :
    (st == chordMask && a != actBDown) = true ↔ st = 0x0F00#16 ∧ a ≠ 3#4 := by
  simp [chordMask, actBDown]

/-- A code is no DOWN code exactly when the engine that holds it is not armed (41_gesture R132). -/
theorem isDown_false_iff (a : ActionCode) : isDown a = false ↔ a ∉ [1#4, 3#4, 5#4, 7#4, 9#4] := by
  rw [← isDown_iff, Bool.not_eq_true]

/-- Step 2: the chord arms B_DOWN (41_gesture R136, R137). -/
theorem gestureStep_of_chord (he : kd ≠ 0#16 ∨ ku ≠ 0#16) (hc : st = 0x0F00#16 ∧ g.gact ≠ 3#4) :
    gestureStep g kd ku st = { g with gact := actBDown, relkey := lowestSetBit kd, gout := actBDown } := by
  rw [gestureStep, if_neg (not_not_intro he ∘ no_edge_iff.1), if_pos ((chord_iff _).2 hc)]

/-- Step 3: an armed engine checks its release key (41_gesture R138). -/
theorem gestureStep_of_armed (he : kd ≠ 0#16 ∨ ku ≠ 0#16) (hc : ¬(st = 0x0F00#16 ∧ g.gact ≠ 3#4))
    (hdown : isDown g.gact = true) : gestureStep g kd ku st = armedRelease g st := by
  rw [gestureStep, if_neg (not_not_intro he ∘ no_edge_iff.1), if_neg (hc ∘ (chord_iff _).1), if_pos hdown]

/-- Steps 4 and 5: an engine that is not armed walks the table (41_gesture R140). -/
theorem gestureStep_of_unarmed (he : kd ≠ 0#16 ∨ ku ≠ 0#16) (hc : st ≠ 0x0F00#16)
    (hdown : isDown g.gact = false) : gestureStep g kd ku st = walkAndArm g kd ku st := by
  rw [gestureStep, if_neg (not_not_intro he ∘ no_edge_iff.1), if_neg (fun h => hc ((chord_iff _).1 h).1),
    if_neg (Bool.eq_false_iff.1 hdown)]

end Procedure

section Command

variable {s : State}

/-- GESTURE writes what its procedure makes of the gesture registers. -/
theorem exec_gesture_of_step {g : GestureRegs} (h : gestureStep s.gestureRegs s.opKd s.opKu s.opSt = g) :
    exec .gesture s = .next (s.withGesture g.gstate g.gact g.relkey g.gout) := by
  subst h; rfl

/-- A poll with no edge clears `GOUT` (41_gesture R134). -/
theorem exec_gesture_no_edge (hkd : s.opKd = 0#16) (hku : s.opKu = 0#16) :
    exec .gesture s = .next { s with gout := 0#4 } :=
  exec_gesture_of_step (if_pos (no_edge_iff.2 (by simp [hkd, hku])))

/-- The chord arms B_DOWN (41_gesture R135 to R137). -/
theorem exec_gesture_chord (he : HasEdge s) (hst : s.opSt = 0x0F00#16) (hact : s.gact ≠ 3#4) :
    exec .gesture s = .next { s with gact := 3#4, gout := 3#4, relkey := lowestSetBit s.opKd } :=
  exec_gesture_of_step (gestureStep_of_chord he ⟨hst, hact⟩)

/-- An armed engine whose release key is gone emits the UP code and goes idle (41_gesture R139). -/
theorem exec_gesture_released (he : HasEdge s) (hc : ¬(s.opSt = 0x0F00#16 ∧ s.gact ≠ 3#4))
    (hdown : isDown s.gact = true) (hrel : s.opSt &&& s.relkey = 0#16) :
    exec .gesture s = .next { s with gstate := 0#6, gact := s.gact + 1#4, gout := s.gact + 1#4 } :=
  exec_gesture_of_step ((gestureStep_of_armed he hc hdown).trans (if_pos (beq_iff_eq.2 hrel)))

/-- An armed engine whose release key is held emits nothing (41_gesture R138). -/
theorem exec_gesture_held (he : HasEdge s) (hc : ¬(s.opSt = 0x0F00#16 ∧ s.gact ≠ 3#4))
    (hdown : isDown s.gact = true) (hheld : s.opSt &&& s.relkey ≠ 0#16) :
    exec .gesture s = .next { s with gout := 0#4 } :=
  exec_gesture_of_step ((gestureStep_of_armed he hc hdown).trans (if_neg (hheld ∘ beq_iff_eq.1)))

/-- The release key after a row's action is adopted: taken from the keydowns when there is an action, kept when
there is none (41_gesture R142). -/
def keyAfterRow (s : State) (r : GestureRow) : GridMask :=
  if r.action = 0#4 then s.relkey else lowestSetBit s.opKd

/-- An engine that is not armed adopts the row that its walk takes (41_gesture R140, R142). -/
theorem exec_gesture_row {r : GestureRow} (he : HasEdge s) (hc : s.opSt ≠ 0x0F00#16)
    (hdown : isDown s.gact = false) (hwalk : tableWalk s.gstate s.opKd s.opKu s.opSt = some r) :
    exec .gesture s =
      .next { s with gstate := r.next, gact := r.action, gout := r.action, relkey := keyAfterRow s r } := by
  refine (exec_gesture_of_step (gestureStep_of_unarmed he hc hdown)).trans ?_
  simp [walkAndArm, State.gestureRegs, hwalk, State.withGesture, keyAfterRow, actNone]

/-- An engine that is not armed goes idle when its walk takes no row (41_gesture R140). -/
theorem exec_gesture_no_row (he : HasEdge s) (hc : s.opSt ≠ 0x0F00#16) (hdown : isDown s.gact = false)
    (hwalk : tableWalk s.gstate s.opKd s.opKu s.opSt = none) :
    exec .gesture s = .next { s with gstate := 0#6, gact := 0#4, gout := 0#4 } := by
  refine (exec_gesture_of_step (gestureStep_of_unarmed he hc hdown)).trans ?_
  simp [walkAndArm, State.gestureRegs, hwalk, State.withGesture, actNone]

/-- While B_DOWN is armed the chord check decides no poll (41_gesture R135). -/
theorem no_chord_of_bDown (hact : s.gact = 3#4) : ¬(s.opSt = 0x0F00#16 ∧ s.gact ≠ 3#4) :=
  fun h => h.2 hact

/-- A poll has an edge, or both its edge masks are empty. -/
theorem hasEdge_or_no_edge (s : State) : HasEdge s ∨ s.opKd = 0#16 ∧ s.opKu = 0#16 := by
  unfold HasEdge; tauto

end Command

/-- The lowest set bit of the keydowns is the release key that arming takes (41_gesture R136, R141). -/
theorem armingKey_lowestSetBit (kd : GridMask) : ArmingKey kd (lowestSetBit kd) := by
  rcases lowestSetBit_cases kd with ⟨hkd, hkey⟩ | ⟨k, hk, hset, hlower, hkey⟩
  · exact .inl ⟨hkd, hkey⟩
  · exact .inr ⟨k, ⟨hk, hset, hlower⟩, hkey⟩

/-- Settles O22: GESTURE is one write of the gesture registers. -/
theorem gestureAlwaysCompletes : Obligations.GestureAlwaysCompletes :=
  fun _ => ⟨_, exec_gesture_of_step rfl, rfl⟩

/-- Settles O23: step 1 decides such a poll. -/
theorem noEdgeOnlyClearsGout : Obligations.NoEdgeOnlyClearsGout :=
  fun _ hkd hku => exec_gesture_no_edge hkd hku

/-- Settles O24: step 2 decides such a poll. -/
theorem chordArmsB : Obligations.ChordArmsB :=
  fun s he hst hact => ⟨_, exec_gesture_chord he hst hact, armingKey_lowestSetBit s.opKd, rfl⟩

/-- Settles O25: step 3 decides such a poll, by the release key in the live state. -/
theorem armedReleaseCheck : Obligations.ArmedReleaseCheck := by
  intro s he hc hact
  have hdown := (isDown_iff s.gact).2 hact
  split
  case isTrue hrel => exact exec_gesture_released he hc hdown hrel
  case isFalse hheld => exact exec_gesture_held he hc hdown hheld

/-- Settles O27: an empty keydown mask gives an empty release key, which no live state holds. -/
theorem emptyReleaseKeyReleasesAtOnce : Obligations.EmptyReleaseKeyReleasesAtOnce := by
  have hempty : lowestSetBit 0#16 = 0#16 := by decide
  refine ⟨hempty, fun s hkd hku hst hact => ?arms, fun s he hact hkey => ?releases⟩
  case arms => rw [exec_gesture_chord (.inr hku) hst hact, hkd, hempty]
  case releases =>
    have hrel : s.opSt &&& s.relkey = 0#16 := by rw [hkey, BitVec.and_zero]
    rw [exec_gesture_released he (no_chord_of_bDown hact) (hact ▸ isDown_actBDown) hrel, hact]
    rfl

/-- Settles O30: step 2 runs before step 3, and its guard fails for B_DOWN alone. -/
theorem chordPreemptsArmedAction : Obligations.ChordPreemptsArmedAction := by
  refine ⟨fun s he hact hst => ?replaces, fun s t hact h => ?keeps⟩
  case replaces =>
    have hother : s.gact ≠ 3#4 := fun h3 => absurd (h3 ▸ hact) (by decide)
    exact exec_gesture_chord he hst hother
  case keeps =>
    have hdown : isDown s.gact = true := hact ▸ isDown_actBDown
    rcases hasEdge_or_no_edge s with he | ⟨hkd, hku⟩
    · by_cases hrel : s.opSt &&& s.relkey = 0#16
      · rw [exec_gesture_released he (no_chord_of_bDown hact) hdown hrel] at h
        cases h
        exact .inr ⟨by rw [hact]; rfl, by rw [hact]; rfl⟩
      · rw [exec_gesture_held he (no_chord_of_bDown hact) hdown hrel] at h
        cases h
        exact .inl ⟨hact, rfl⟩
    · rw [exec_gesture_no_edge hkd hku] at h
      cases h
      exact .inl ⟨hact, rfl⟩

/-- Settles O31: with or without an edge, the poll only clears `GOUT`. -/
theorem chordDoesNotRepeat : Obligations.ChordDoesNotRepeat := by
  intro s hact _ hheld
  rcases hasEdge_or_no_edge s with he | ⟨hkd, hku⟩
  · exact exec_gesture_held he (no_chord_of_bDown hact) (hact ▸ isDown_actBDown) hheld
  · exact exec_gesture_no_edge hkd hku

end Sys2Proof.Machine
end

section
/-! SUPPORT. The gesture table: its ROM words, its rows' states and actions, and the walk as the first row that matches
(spec/41_gesture.md R131, R133, R140, R143, R147). -/

namespace Sys2Proof.Machine

/-- The number of a word put together of two parts, the second one of `m` bits. -/
theorem toNat_append_eq_add {n m : Nat} (x : BitVec n) (y : BitVec m) :
    (x ++ y).toNat = 2 ^ m * x.toNat + y.toNat := by
  rw [BitVec.toNat_append, ← Nat.shiftLeft_add_eq_or_of_lt y.isLt, Nat.shiftLeft_eq, Nat.mul_comm]

/-- The number of a ROM word from the fields of its row (30_encoding R80). -/
theorem romWord_toNat (r : GestureRow) :
    (romWord r).toNat = 65536 * r.state.toNat + 4096 * r.key.toNat + 1024 * (kindCode r.kind).toNat +
      16 * r.next.toNat + r.action.toNat := by
  simp only [romWord, toNat_append_eq_add]
  omega

/-- A field of a ROM word is the digits of its number in the field's place. -/
theorem romWord_extractLsb' (r : GestureRow) {start len : Nat} {v : BitVec len}
    (h : (romWord r).toNat / 2 ^ start % 2 ^ len = v.toNat) : (romWord r).extractLsb' start len = v := by
  rw [← BitVec.toNat_inj, BitVec.extractLsb'_toNat, Nat.shiftRight_eq_div_pow, h]

/-- Each edge kind reads back from its code (30_encoding R80). -/
theorem kindOfCode_kindCode (k : EdgeKind) : kindOfCode (kindCode k) = some k := by
  cases k <;> rfl

/-- Every row reads back from its ROM word, field by field (30_encoding R80). -/
theorem rowOfRomWord_romWord (r : GestureRow) : rowOfRomWord (romWord r) = some r := by
  have hword := romWord_toNat r
  have hstate : (romWord r).extractLsb' 16 6 = r.state := romWord_extractLsb' r (by omega)
  have hkey : (romWord r).extractLsb' 12 4 = r.key := romWord_extractLsb' r (by omega)
  have hkind : (romWord r).extractLsb' 10 2 = kindCode r.kind := romWord_extractLsb' r (by omega)
  have hnext : (romWord r).extractLsb' 4 6 = r.next := romWord_extractLsb' r (by omega)
  have haction : (romWord r).extractLsb' 0 4 = r.action := romWord_extractLsb' r (by omega)
  simp only [rowOfRomWord, hkind, hstate, hkey, hnext, haction, kindOfCode_kindCode, Option.map_some]

/-- Settles O20: the words and the row counts are read off the table; each row's word is laid out as R80 says. -/
theorem gestureTableIsTheRom : Obligations.GestureTableIsTheRom := by
  refine ⟨by decide, fun r _ => ⟨rowOfRomWord_romWord r, ?layout⟩, by decide, by decide⟩
  case layout =>
    rw [romWord_toNat]
    cases r.kind <;> rfl

/-- Every `next` of the table is a state id (41_gesture R133). -/
theorem gestureTable_next_le : ∀ r ∈ gestureTable, r.next.toNat ≤ 36 := by decide

/-- A MAP leaves `GSTATE` alone. -/
theorem commitMap_gstate (s : State) (m : BankMode) : (s.commitMap m).gstate = s.gstate := by
  obtain ⟨v, hv⟩ := commitMap_eq s m
  rw [hv]; rfl

/-- A command leaves `GSTATE` alone, or makes it 0 or a `next` of the table (41_gesture R133). -/
theorem exec_gstate_cases {i : Instr} {s t : State} (h : exec i s = .next t) :
    t.gstate = s.gstate ∨ t.gstate = 0#6 ∨ ∃ r ∈ gestureTable, t.gstate = r.next := by
  rcases exec_next_cases h with ⟨-, rfl⟩ | ⟨-, rfl⟩ | ⟨-, -, -, rfl⟩ | ⟨-, -, -, rfl⟩ | ⟨-, -, rfl⟩ |
    ⟨-, -, rfl⟩ | ⟨-, rfl⟩ | ⟨-, rfl⟩ | ⟨-, g, rfl, rfl⟩ | ⟨m, -, rfl⟩
  iterate 8 exact .inl rfl
  · rcases gestureStep_cases s.gestureRegs s.opKd s.opKu s.opSt with
      ⟨hkept, -⟩ | ⟨hkept, -⟩ | hidle | ⟨r, hr, hnext, -⟩
    · exact .inl hkept
    · exact .inl hkept
    · exact .inr (.inl hidle)
    · exact .inr (.inr ⟨r, hr, hnext⟩)
  · exact .inl (commitMap_gstate s m)

/-- Settles O21: a kept state id, 0 and a `next` of the table are all in 0..36. -/
theorem gStateStaysAStateId : Obligations.GStateStaysAStateId := by
  refine ⟨gestureTable_next_le, by decide, fun _ _ _ => exec_gstate_cases, fun i s t hs h => ?_⟩
  rcases exec_gstate_cases h with hkept | hidle | ⟨r, hr, hnext⟩
  · rwa [hkept]
  · rw [hidle]; exact Nat.zero_le _
  · rw [hnext]; exact gestureTable_next_le r hr

section Walk

variable {gs : GStateId} {kd ku st : GridMask} {r : GestureRow}

/-- A row matches when it is of the state and its key is set in the mask of its kind (41_gesture R140). -/
theorem rowMatches_iff : rowMatches gs kd ku st r = true ↔
    r.state = gs ∧ (rowMask r.kind kd ku st).getLsbD r.key.toNat = true := by
  simp [rowMatches]

/-- A row of the state whose key is not set in the mask of its kind does not match. -/
theorem rowMatches_eq_false (h : r.state = gs → (rowMask r.kind kd ku st).getLsbD r.key.toNat = false) :
    rowMatches gs kd ku st r = false := by
  refine Bool.eq_false_iff.2 fun hm => ?_
  obtain ⟨hstate, hset⟩ := rowMatches_iff.1 hm
  exact Bool.false_ne_true ((h hstate).symm.trans hset)

/-- The walk takes a matching row that no row before it matches (41_gesture R140). -/
theorem tableWalk_eq_some {n : Nat} (hn : gestureTable[n]? = some r) (hr : rowMatches gs kd ku st r = true)
    (hfirst : ∀ m q, m < n → gestureTable[m]? = some q → rowMatches gs kd ku st q = false) :
    tableWalk gs kd ku st = some r := by
  obtain ⟨hlt, hget⟩ := List.getElem?_eq_some_iff.1 hn
  refine List.find?_eq_some_iff_getElem.2 ⟨hr, n, hlt, hget, fun m hm => ?_⟩
  simpa using hfirst m _ hm (List.getElem?_eq_getElem (hm.trans hlt))

/-- The walk takes no row when none matches. -/
theorem tableWalk_eq_none (h : ∀ q ∈ gestureTable, rowMatches gs kd ku st q = false) :
    tableWalk gs kd ku st = none :=
  List.find?_eq_none.2 fun q hq => Bool.eq_false_iff.1 (h q hq)

end Walk

/-- Settles O26: the walk's first match is the row named, or there is none; steps 4 and 5 then decide the poll. -/
theorem walkTakesFirstMatch : Obligations.WalkTakesFirstMatch := by
  intro s he hc hact
  have hdown := (isDown_false_iff s.gact).2 hact
  refine ⟨fun n r hn hstate hset hfirst => ?taken, fun hnone => ?idle⟩
  case taken =>
    have hwalk : tableWalk s.gstate s.opKd s.opKu s.opSt = some r :=
      tableWalk_eq_some hn (rowMatches_iff.2 ⟨hstate, hset⟩)
        fun m q hm hq => rowMatches_eq_false (hfirst m q hm hq)
    refine ⟨_, exec_gesture_row he hc hdown hwalk, fun hnoact => if_pos hnoact, fun hsome => ?_, rfl⟩
    have hkey : keyAfterRow s r = lowestSetBit s.opKd := if_neg hsome
    exact hkey ▸ armingKey_lowestSetBit s.opKd
  case idle =>
    exact exec_gesture_no_row he hc hdown
      (tableWalk_eq_none fun q hq => rowMatches_eq_false (hnone q hq))

/-- In state 9 a keydown of key 9 alone takes no row, whatever the live state (41_gesture R147). -/
theorem tableWalk_state9_key9 (st : GridMask) : tableWalk 9#6 0x0200#16 0#16 st = none :=
  (tableWalk_state_unused _ _ _ st 0#16).trans (by decide)

/-- Settles O32: the walk of state 9 takes no row, and the idle state's rows are not tried. -/
theorem abortingEdgeIsConsumed : Obligations.AbortingEdgeIsConsumed := by
  intro s hgs hact hkd hku hc
  have he : HasEdge s := .inl (hkd ▸ by decide)
  have hwalk : tableWalk s.gstate s.opKd s.opKu s.opSt = none := by
    rw [hgs, hkd, hku, tableWalk_state9_key9]
  rw [exec_gesture_no_row he hc (by rw [hact]; decide) hwalk, ← hact]

/-- The rows with an UP action are of the four states in which the engine is armed (41_gesture R143). -/
theorem gestureTable_up_state :
    ∀ r ∈ gestureTable, r.action ∈ [2#4, 4#4, 6#4, 8#4, 10#4] → r.state ∈ [4#6, 8#6, 17#6, 36#6] := by
  decide

/-- Every run from reset keeps every register group legal, at every depth and whatever the host drives. -/
theorem registersLegal_run_from_reset {d k : Nat} {p : Pins} {ps : List Pins} {t : State}
    (h : Host.Core.run Sys2Proof.core k (((State.initial d).withPins p).withUpcoming ps) = .next t) :
    RegistersLegal t :=
  run_induction RegistersLegal (fun _ _ => registersLegal_step) k _ t h { registersLegal_initial d with }

/-- Settles O28: of the invariant that every run from reset keeps, the part that the four states are armed. -/
theorem releaseRowsNeverFire : Obligations.ReleaseRowsNeverFire := by
  refine ⟨by decide, fun d k p ps t h => ?_⟩
  have harmed : t.gstate ∈ [4#6, 8#6, 17#6, 36#6] → t.gact ∈ [1#4, 3#4, 5#4, 7#4, 9#4] :=
    fun hgs => (isDown_iff t.gact).1 ((registersLegal_run_from_reset h).gesture.armed hgs)
  refine ⟨harmed, fun kd ku st r hunarmed hwalk hup => ?_⟩
  obtain ⟨hmem, hstate⟩ := tableWalk_some hwalk
  exact hunarmed (harmed (hstate ▸ gestureTable_up_state r hmem hup))

end Sys2Proof.Machine
end

section
/-! SUPPORT. Polls of a single edge: the row that each takes, the row that a sequence of them ends in, and the release
of the action it arms (spec/41_gesture.md R144). -/

namespace Sys2Proof.Machine

/-- The keydown mask of a single edge. -/
def edgeKd : Nat × Bool → GridMask
  | (key, true) => BitVec.twoPow 16 key
  | (_, false) => 0#16

/-- The keyup mask of a single edge. -/
def edgeKu : Nat × Bool → GridMask
  | (_, true) => 0#16
  | (key, false) => BitVec.twoPow 16 key

/-- The first poll of a list of single edges, and the rest. -/
theorem singleEdgePolls_cons (e : Nat × Bool) (rest : List (Nat × Bool)) (st : Nat → GridMask) :
    singleEdgePolls (e :: rest) st =
      (edgeKd e, edgeKu e, st 0) :: singleEdgePolls rest (fun n => st (n + 1)) := by
  obtain ⟨key, down⟩ := e
  cases down <;> rfl

/-- The first of a list of polls runs GESTURE on its operands, and the rest follow. -/
theorem gesturePolls_cons (kd ku st : GridMask) (rest : List (GridMask × GridMask × GridMask)) (s : State) :
    gesturePolls ((kd, ku, st) :: rest) s =
      andThen (exec .gesture (s.driveGrid kd ku st)) (gesturePolls rest) := rfl

/-- The row that a single edge takes in a state; no row tests the live state. -/
def rowOnEdge (gs : GStateId) (e : Nat × Bool) : Option GestureRow :=
  tableWalk gs (edgeKd e) (edgeKu e) 0#16

/-- The row that the last of a sequence of edges takes, where every row before it leads on without an action. -/
def lastRow : GStateId → Nat × Bool → List (Nat × Bool) → Option GestureRow
  | gs, e, [] => rowOnEdge gs e
  | gs, e, e' :: rest =>
    (rowOnEdge gs e).bind fun q => if q.action = 0#4 then lastRow q.next e' rest else none

/-- A sequence of two edges or more takes a row without an action first. -/
theorem lastRow_cons {gs : GStateId} {e e' : Nat × Bool} {rest : List (Nat × Bool)} {r : GestureRow}
    (h : lastRow gs e (e' :: rest) = some r) :
    ∃ q, rowOnEdge gs e = some q ∧ q.action = 0#4 ∧ lastRow q.next e' rest = some r := by
  obtain ⟨q, hq, h⟩ := Option.bind_eq_some_iff.1 h
  split at h
  case isTrue hsilent => exact ⟨q, hq, hsilent, h⟩
  case isFalse => cases h

/-- No walk takes a row when all three masks are empty. -/
theorem tableWalk_empty (gs : GStateId) : tableWalk gs 0#16 0#16 0#16 = none := by
  refine tableWalk_eq_none fun q _ => rowMatches_eq_false fun _ => ?_
  cases q.kind <;> exact BitVec.getLsbD_zero

/-- A poll whose edge takes a row has an edge. -/
theorem hasEdge_of_rowOnEdge {gs : GStateId} {e : Nat × Bool} {r : GestureRow} (h : rowOnEdge gs e = some r) :
    edgeKd e ≠ 0#16 ∨ edgeKu e ≠ 0#16 := by
  by_contra hempty
  obtain ⟨hkd, hku⟩ : edgeKd e = 0#16 ∧ edgeKu e = 0#16 := by simpa using hempty
  rw [rowOnEdge, hkd, hku, tableWalk_empty] at h
  cases h

/-- The registers show that a poll with a keydown mask adopted a row (41_gesture R140, R142). -/
structure RowAdopted (t : State) (r : GestureRow) (kd : GridMask) : Prop where
  gstate_eq : t.gstate = r.next
  gact_eq : t.gact = r.action
  gout_eq : t.gout = r.action
  relkey_eq : r.action ≠ 0#4 → t.relkey = lowestSetBit kd

/-- An engine that is not armed adopts the row that a single edge takes. -/
theorem exec_gesture_edge {s : State} {e : Nat × Bool} {r : GestureRow} {st : GridMask}
    (hrow : rowOnEdge s.gstate e = some r) (hdown : isDown s.gact = false) (hst : st ≠ 0x0F00#16) :
    ∃ t, exec .gesture (s.driveGrid (edgeKd e) (edgeKu e) st) = .next t ∧ RowAdopted t r (edgeKd e) :=
  ⟨_, exec_gesture_row (s := s.driveGrid (edgeKd e) (edgeKu e) st) (hasEdge_of_rowOnEdge hrow) hst hdown
    ((tableWalk_state_unused _ _ _ st 0#16).trans hrow), rfl, rfl, rfl, fun hact => if_neg hact⟩

/-- A sequence of edges from an engine that is not armed adopts its last row: the rows before it arm nothing. -/
theorem gesturePolls_lastRow {e : Nat × Bool} {rest : List (Nat × Bool)} {r : GestureRow} {s : State}
    {st : Nat → GridMask} (hrow : lastRow s.gstate e rest = some r) (hdown : isDown s.gact = false)
    (hst : ∀ n, st n ≠ 0x0F00#16) :
    ∃ t, gesturePolls (singleEdgePolls (e :: rest) st) s = .next t ∧
      RowAdopted t r (edgeKd ((e :: rest).getLast (List.cons_ne_nil e rest))) := by
  induction rest generalizing e s st with
  | nil =>
    obtain ⟨t, ht, hadopted⟩ := exec_gesture_edge hrow hdown (hst 0)
    refine ⟨t, ?_, hadopted⟩
    rw [singleEdgePolls_cons, gesturePolls_cons, ht]
    rfl
  | cons e' rest ih =>
    obtain ⟨q, hq, hsilent, hrest⟩ := lastRow_cons hrow
    obtain ⟨u, hu, hadopted⟩ := exec_gesture_edge hq hdown (hst 0)
    have hidle : isDown u.gact = false := by rw [hadopted.gact_eq, hsilent]; rfl
    obtain ⟨t, ht, hlast⟩ := ih (hadopted.gstate_eq.symm ▸ hrest) hidle fun n => hst (n + 1)
    refine ⟨t, ?_, hlast⟩
    rw [singleEdgePolls_cons, gesturePolls_cons, hu, andThen_of_next, ht]

/-- A sequence of edges whose last row has no action leads to that row's next state (41_gesture R144). -/
theorem leadsTo_of_lastRow {e : Nat × Bool} {rest : List (Nat × Bool)} {r : GestureRow}
    (hrow : lastRow 0#6 e rest = some r) (hsilent : r.action = 0#4) : LeadsTo (e :: rest) r.next := by
  intro s st hgs hact hst
  obtain ⟨t, ht, hadopted⟩ := gesturePolls_lastRow (hgs ▸ hrow) ((isDown_false_iff _).2 hact) hst
  exact ⟨t, ht, hadopted.gstate_eq, hadopted.gact_eq.trans hsilent⟩

/-- A single key's mask is not empty. -/
theorem keyMask_ne_zero : ∀ key < 16, (BitVec.twoPow 16 key : GridMask) ≠ 0#16 := by decide

/-- The lowest set bit of a single key's mask is the key's. -/
theorem lowestSetBit_keyMask : ∀ key < 16, lowestSetBit (BitVec.twoPow 16 key) = BitVec.twoPow 16 key := by
  decide

/-- The release of an armed engine's release key, seen as a poll that is not the chord or that finds B_DOWN armed. -/
theorem exec_gesture_release_poll {t : State} {ku live : GridMask} (hku : ku ≠ 0#16)
    (hc : ¬(live = 0x0F00#16 ∧ t.gact ≠ 3#4)) (hdown : isDown t.gact = true)
    (hrel : live &&& t.relkey = 0#16) :
    ∃ u, exec .gesture (t.driveGrid 0#16 ku live) = .next u ∧ u.gout = t.gact + 1#4 ∧ u.gstate = 0#6 :=
  ⟨_, exec_gesture_released (s := t.driveGrid 0#16 ku live) (.inr hku) hc hdown hrel, rfl, rfl⟩

/-- A sequence of edges whose last one is a keydown and takes a row with a DOWN action is recognised: the key becomes
the release key, and its release gives the UP code (41_gesture R144). -/
theorem recognises_of_lastRow {e : Nat × Bool} {rest : List (Nat × Bool)} {r : GestureRow} {key : Nat}
    (hrow : lastRow 0#6 e rest = some r) (hdown : isDown r.action = true)
    (hlast : (e :: rest).getLast (List.cons_ne_nil e rest) = (key, true)) (hkey : key < 16) :
    Recognises (e :: rest) r.action key := by
  intro s st hgs hact hst
  obtain ⟨t, ht, hadopted⟩ := gesturePolls_lastRow (hgs ▸ hrow) ((isDown_false_iff _).2 hact) hst
  have hsome : r.action ≠ 0#4 := fun h0 => absurd (h0 ▸ hdown) (by decide)
  have hrelkey : t.relkey = BitVec.twoPow 16 key := by
    rw [hadopted.relkey_eq hsome, hlast]; exact lowestSetBit_keyMask key hkey
  refine ⟨t, ht, hadopted.gact_eq, hadopted.gout_eq, hrelkey, fun live hlive hup => ?_⟩
  have hrel : live &&& t.relkey = 0#16 := by
    rw [hrelkey, BitVec.and_twoPow, hup]; rfl
  rw [← hadopted.gact_eq] at hdown ⊢
  exact exec_gesture_release_poll (keyMask_ne_zero key hkey) (fun h => hlive h.1) hdown hrel

/-- Settles O29: each sequence's last row is found by walking the table edge by edge; the chord is step 2's. -/
theorem combosAreRecognised : Obligations.CombosAreRecognised := by
  refine ⟨?comboA, fun s he hst hact => ?chord, ?comboC, ?comboD, ?comboE, ?merge15, ?merge31, ?merge37, ?merge40⟩
  case comboA =>
    exact recognises_of_lastRow (r := ⟨3#6, 15#4, .down, 4#6, actADown⟩) (by decide) rfl rfl (by decide)
  case chord =>
    refine ⟨_, exec_gesture_chord he hst hact, rfl, rfl, fun ku live hku hrel => ?_⟩
    obtain ⟨u, hu, hout, -⟩ := exec_gesture_release_poll hku (fun h => h.2 rfl) isDown_actBDown hrel
    exact ⟨u, hu, hout⟩
  case comboC =>
    exact recognises_of_lastRow (r := ⟨7#6, 6#4, .down, 8#6, actCDown⟩) (by decide) rfl rfl (by decide)
  case comboD =>
    exact recognises_of_lastRow (r := ⟨16#6, 11#4, .down, 17#6, actDDown⟩) (by decide) rfl rfl (by decide)
  case comboE =>
    exact recognises_of_lastRow (r := ⟨35#6, 10#4, .down, 36#6, actEDown⟩) (by decide) rfl rfl (by decide)
  case merge15 => exact leadsTo_of_lastRow (r := ⟨11#6, 10#4, .down, 6#6, actNone⟩) (by decide) rfl
  case merge31 => exact leadsTo_of_lastRow (r := ⟨26#6, 10#4, .down, 6#6, actNone⟩) (by decide) rfl
  case merge37 => exact leadsTo_of_lastRow (r := ⟨31#6, 10#4, .down, 13#6, actNone⟩) (by decide) rfl
  case merge40 => exact leadsTo_of_lastRow (r := ⟨33#6, 9#4, .down, 11#6, actNone⟩) (by decide) rfl

end Sys2Proof.Machine
end

section
/-! SUPPORT. The events of a MAP in the statements' spelling: which bank is in force, the bank-select events and the
note keys' events as lists of pairs, and with them everything that a MAP of each mode leaves behind
(spec/42_bank_mapper.md R170 to R185, R188). -/

namespace Sys2Proof.Machine

/-- Settles O33: the table is the listed one, read at each of the sixteen keys. -/
theorem noteTableAndLayout : Obligations.NoteTableAndLayout := by
  have hlayout : ∀ row < 4, ∀ col < 4, noteOffset (4 * row + col) = 4 * (3 - row) + col := by decide
  exact ⟨rfl, fun row col hrow hcol => hlayout row hrow col hcol⟩

/-- An event as the statements spell it: on or off, and the note. -/
def eventPair (e : NoteEvent) : Bool × Nat := (e.on, e.note)

section BankInForce

variable {m : ExpMask} {b nb : BankNo}

/-- No mask has two lowest set bits. -/
theorem lowestBit_unique {w : Nat} {m : BitVec w} {j k : Nat} (hj : LowestBit m j) (hk : LowestBit m k) : j = k := by
  obtain ⟨-, hjset, hjlow⟩ := hj
  obtain ⟨-, hkset, hklow⟩ := hk
  rcases Nat.lt_trichotomy j k with hlt | heq | hgt
  · exact absurd hjset (by simp [hklow j hlt])
  · exact heq
  · exact absurd hkset (by simp [hjlow k hgt])

/-- `ctz` of a nonzero mask is its lowest set bit (00_scope R10). -/
theorem lowestBit_ctz (h : m ≠ 0#4) : LowestBit m (ctz m).toNat :=
  ⟨(ctz m).isLt, ctz_lowest m h⟩

/-- The bank in force is the one that `bankAfter` computes, and no other (42_bank_mapper R179). -/
theorem bankInForce_iff : BankInForce m b nb ↔ nb = bankAfter b m := by
  by_cases hm : m = 0#4
  · simp [BankInForce, bankAfter, hm]
  · simp only [BankInForce, bankAfter, hm, beq_iff_eq, false_and, false_or, ne_eq, not_false_eq_true, true_and,
      if_false]
    constructor
    · exact fun h => BitVec.eq_of_toNat_eq (lowestBit_unique h (lowestBit_ctz hm))
    · rintro rfl
      exact lowestBit_ctz hm

/-- Without a bank-select keydown the bank stays (42_bank_mapper R179). -/
@[simp] theorem bankAfter_no_keydown : bankAfter b 0#4 = b := rfl

/-- The modes other than Off work in `BANK`, or in bank 0 on a mode entry (42_bank_mapper R173). -/
theorem entryBank_of_ne_off (s : State) {mode : BankMode} (h : mode ≠ .off) :
    s.entryBank mode = if s.lastmode = modeCode mode then s.bank else 0#2 := by
  by_cases hl : s.lastmode = modeCode mode
  · simp [State.entryBank, hl, h]
  · simp [State.entryBank, hl, Ne.symm hl]

/-- A mode entry works in bank 0 (42_bank_mapper R173). -/
theorem entryBank_of_entry (s : State) {mode : BankMode} (h : s.lastmode ≠ modeCode mode) :
    s.entryBank mode = 0#2 := if_pos (by simp [Ne.symm h])

end BankInForce

section Pairs

/-- The bank-select events, keyup before keydown, are those of 42_bank_mapper R178 and R179. -/
theorem bankSelect_pairs (idBase : Nat) (b : BankNo) (bsd bsu bss : ExpMask) :
    (keyupEvents idBase b bsu ++ keydownEvents idBase b bsd bss).map eventPair =
      bankSelectEvents idBase b (bankAfter b bsd) bsd bsu bss := by
  have hkeyup : (keyupEvents idBase b bsu).map eventPair =
      if bsu.getLsbD b.toNat then [(false, idBase + b.toNat)] else [] := by
    unfold keyupEvents
    split <;> rfl
  rw [List.map_append, hkeyup, bankSelectEvents]
  congr 1
  by_cases hd : bsd = 0#4
  · simp [keydownEvents, hd]
  · by_cases hforced : ctz bsd ≠ b ∧ bss.getLsbD b.toNat = true
    · simp [keydownEvents, bankAfter, hd, hforced, eventPair, identityNote]
    · simp [keydownEvents, bankAfter, hd, hforced, eventPair, identityNote]

/-- Without bank-select edges there is no bank-select event. -/
theorem bankSelectEvents_no_edge (idBase : Nat) (b nb : BankNo) (bss : ExpMask) :
    bankSelectEvents idBase b nb 0#4 0#4 bss = [] := by
  simp [bankSelectEvents]

/-- Where the note keys are those from `first` up, their events are those of 42_bank_mapper R182. -/
theorem noteKeyEvents_pairs {first : Nat} {nk : GridMask} (hnk : ∀ i < 16, nk.getLsbD i = decide (first ≤ i))
    (on : Bool) (base : Nat) (mask : GridMask) :
    (noteKeyEvents on base nk mask).map eventPair = keyEventsFrom first on base mask := by
  have hkeys : ((List.range 16).filter fun i => nk.getLsbD i && mask.getLsbD i) =
      (List.range 16).filter fun i => decide (first ≤ i) && mask.getLsbD i :=
    List.filter_congr fun i hi => by rw [hnk i (List.mem_range.1 hi)]
  rw [noteKeyEvents_eq, hkeys, List.map_map]
  rfl

/-- The events of a MAP in the order of 42_bank_mapper R180, at the bank it commits. -/
theorem mapEvents_pairs (s : State) (m : BankMode) {first : Nat}
    (hnk : ∀ i < 16, (s.selectors m).nk.getLsbD i = decide (first ≤ i)) :
    (s.mapEvents m).map eventPair =
      bankSelectEvents s.cfgBankNoteBase (s.entryBank m) (s.mapBank m) (s.selectors m).bsd (s.selectors m).bsu
          (s.selectors m).bss ++
        keyEventsFrom first false (s.cfgBaseNote + (s.selectors m).stride * (s.mapBank m).toNat) s.opKu ++
        keyEventsFrom first true (s.cfgBaseNote + (s.selectors m).stride * (s.mapBank m).toNat) s.opKd := by
  rw [State.mapEvents, List.map_append, List.map_append, bankSelect_pairs, noteKeyEvents_pairs hnk,
    noteKeyEvents_pairs hnk, Nat.mul_comm]
  rfl

end Pairs

section Leaves

variable (s : State) (m : BankMode)

/-- `NOTE_OOR` after a MAP (42_bank_mapper R188). -/
@[simp] theorem commitMap_noteOor :
    (s.commitMap m).noteOor = (s.noteOor || anyNoteOutOfRange (s.mapEvents m)) :=
  flagNotes_noteOor _ _

/-- Some event's note is above 127, in the statements' spelling. -/
theorem anyNoteOutOfRange_eq (ev : List NoteEvent) :
    anyNoteOutOfRange ev = (ev.map eventPair).any fun e => decide (127 < e.2) := by
  rw [List.any_map]
  rfl

/-- A MAP writes its bank, its mode, the buffer of its events and `NOTE_OOR`, and no other register
(42_bank_mapper R170). -/
theorem commitMap_mapLeaves :
    MapLeaves s (s.commitMap m) (s.mapBank m) (modeCode m) ((s.mapEvents m).map eventPair) := by
  refine ⟨commitMap_bank s m, commitMap_lastmode s m, commitMap_bufferHolds s m, ?noteOor,
    flagNotes_illegalFlag _ _, flagNotes_icause _ _, ?frame⟩
  case noteOor => rw [commitMap_noteOor, anyNoteOutOfRange_eq]
  case frame =>
    obtain ⟨v, hv⟩ := commitMap_eq s m
    rw [hv]
    rfl

/-- The selectors of External mode, each empty while the expansion port is not enabled (42_bank_mapper R175). -/
theorem selectors_external : s.selectors .external =
    { bsd := if s.cfgExpEn then s.opXkd else 0#4, bsu := if s.cfgExpEn then s.opXku else 0#4,
      bss := if s.cfgExpEn then s.opXst else 0#4, nk := 0xFFFF#16, stride := strideExternal } := by
  cases h : s.cfgExpEn with
  | true => rw [selectors_external_enabled h]; rfl
  | false => rw [selectors_external_disabled h]; rfl

end Leaves

/-- All sixteen keys are note keys in Off and External mode. -/
theorem allKeys_getLsbD : ∀ i < 16, (0xFFFF#16 : GridMask).getLsbD i = decide (0 ≤ i) := by decide

/-- The note keys of Internal mode are 4..15. -/
theorem keysFrom4_getLsbD : ∀ i < 16, (0xFFF0#16 : GridMask).getLsbD i = decide (4 ≤ i) := by decide

/-- Settles O34: Off mode has no selectors and no stride, so only the note keys' events are left. -/
theorem mapOffEvents : Obligations.MapOffEvents := by
  intro s
  refine ⟨s.commitMap .off, rfl, ?_⟩
  have hleaves := commitMap_mapLeaves s .off
  rw [mapEvents_pairs s .off allKeys_getLsbD, mapBank_off] at hleaves
  simp only [State.selectors, bankSelectEvents_no_edge, List.nil_append] at hleaves
  exact hleaves

/-- Settles O35: the low 4 bits of the grid operands select, and the note keys' window is that of the bank left in
force. -/
theorem mapIntEvents : Obligations.MapIntEvents := by
  rintro s _ _ _ _ nb rfl rfl rfl rfl hnb
  refine ⟨s.commitMap .internal, rfl, ?_⟩
  have hbank : s.mapBank .internal = nb := by
    rw [bankInForce_iff.1 hnb, ← expBits_eq_ofNat]
    exact congrArg (bankAfter · _) (entryBank_of_ne_off s (by decide))
  have hleaves := commitMap_mapLeaves s .internal
  rw [mapEvents_pairs s .internal keysFrom4_getLsbD, hbank, entryBank_of_ne_off s (by decide)] at hleaves
  simp only [← expBits_eq_ofNat]
  exact hleaves

/-- Settles O36: the expansion operands select while the port is enabled, and every key is a note key. -/
theorem mapExtEvents : Obligations.MapExtEvents := by
  rintro s _ _ _ _ nb rfl rfl rfl rfl hnb
  refine ⟨s.commitMap .external, rfl, ?_⟩
  have hbank : s.mapBank .external = nb := by
    rw [bankInForce_iff.1 hnb, ← expBits_eq_ofNat, State.mapBank, selectors_external,
      entryBank_of_ne_off s (by decide)]
    rfl
  have hnk : ∀ i < 16, (s.selectors .external).nk.getLsbD i = decide (0 ≤ i) := by
    rw [selectors_external]
    exact allKeys_getLsbD
  have hleaves := commitMap_mapLeaves s .external
  rw [mapEvents_pairs s .external hnk, hbank, entryBank_of_ne_off s (by decide), selectors_external] at hleaves
  simp only [← expBits_eq_ofNat]
  exact hleaves

end Sys2Proof.Machine
end

section
/-! SUPPORT. What a MAP's result depends on and how many events it has: the mode entry, the MAP commands' one buffer,
the bank-select keydown in the buffer, the event bounds for consistent operands, and the independence of the mapper
and the gesture engine (spec/42_bank_mapper.md R173, R179, R184, R186 to R188, R190). -/

namespace Sys2Proof.Machine

/-- Each MAP command has its mode (30_encoding R74). -/
theorem exists_mode_of_mem {i : Instr} (h : i ∈ [Instr.mapOff, .mapInt, .mapExt]) : ∃ m, (i, m) ∈ mapCommands := by
  obtain ⟨⟨_, m⟩, hm, rfl⟩ := List.mem_map.1 (show i ∈ mapCommands.map Prod.fst from h)
  exact ⟨m, hm⟩

/-- Each MAP command has its mode, with the code of 30_encoding R79. -/
theorem exists_mode_of_code {i : Instr} {code : BitVec 2}
    (h : (i, code) ∈ [(Instr.mapOff, 0#2), (.mapInt, 1#2), (.mapExt, 2#2)]) :
    ∃ m, (i, m) ∈ mapCommands ∧ modeCode m = code := by
  obtain ⟨⟨j, m⟩, hm, hcode⟩ := List.mem_map.1
    (show (i, code) ∈ mapCommands.map (fun c => (c.1, modeCode c.2)) from h)
  obtain ⟨rfl, rfl⟩ := Prod.mk.inj hcode
  exact ⟨m, hm, rfl⟩

section ModeEntry

variable {s : State} {m : BankMode}

/-- Of the mapper's registers, a MAP's commit depends on the working bank alone (42_bank_mapper R170). -/
theorem commitMap_withMapper {b : BankNo} {mode : BitVec 2} {ev : List EvtEntry} {n : BitVec 5}
    (h : (s.withMapper b mode ev n).entryBank m = s.entryBank m) :
    (s.withMapper b mode ev n).commitMap m = s.commitMap m := by
  have hbank : (s.withMapper b mode ev n).mapBank m = s.mapBank m := congrArg (bankAfter · _) h
  have hevents : (s.withMapper b mode ev n).mapEvents m = s.mapEvents m := by
    simp only [State.mapEvents, h]
    rfl
  have hcount : ∀ k, (s.withMapper b mode ev n).eventCount m k = s.eventCount m k := by
    intro k
    simp only [State.eventCount, State.freeEventCount, h]
    rfl
  simp only [State.commitMap, hbank, hevents, hcount]
  rfl

/-- Where the last mode is the MAP's own and `BANK` is 0, the working bank is 0 (42_bank_mapper R173). -/
theorem entryBank_withMapper_zero (ev : List EvtEntry) (n : BitVec 5) :
    (s.withMapper 0#2 (modeCode m) ev n).entryBank m = 0#2 :=
  ite_id _

/-- With no edge on any operand a mode has no bank-select edge. -/
theorem selectors_no_edge (hkd : s.pins.d0 = 0#16) (hku : s.pins.d1 = 0#16) (hxkd : s.pins.d3 = 0#16)
    (hxku : s.pins.d4 = 0#16) : (s.selectors m).bsd = 0#4 ∧ (s.selectors m).bsu = 0#4 := by
  have hzero : expBits 0#16 = 0#4 := rfl
  cases m with
  | off => exact ⟨rfl, rfl⟩
  | internal => simp only [State.selectors, State.opKd, State.opKu, hkd, hku, hzero, and_self]
  | external => simp only [selectors_external, State.opXkd, State.opXku, hxkd, hxku, hzero, ite_self, and_self]

/-- An empty mask has no note-key event. -/
@[simp] theorem noteKeyEvents_zero (on : Bool) (base : Nat) (nk : GridMask) : noteKeyEvents on base nk 0#16 = [] := by
  simp [noteKeyEvents_eq]

/-- With no edge on any operand a MAP keeps its working bank and has no event. -/
theorem map_no_edge (hkd : s.pins.d0 = 0#16) (hku : s.pins.d1 = 0#16) (hxkd : s.pins.d3 = 0#16)
    (hxku : s.pins.d4 = 0#16) : s.mapBank m = s.entryBank m ∧ s.mapEvents m = [] := by
  obtain ⟨hbsd, hbsu⟩ := selectors_no_edge (m := m) hkd hku hxkd hxku
  refine ⟨by rw [State.mapBank, hbsd, bankAfter_no_keydown], ?_⟩
  simp [State.mapEvents, State.opKd, State.opKu, keyupEvents, keydownEvents, hbsd, hbsu, hkd, hku]

end ModeEntry

/-- Settles O37: on a mode entry both MAPs work in bank 0, on which alone the commit depends. -/
theorem modeEntryStartsAtBankZero : Obligations.ModeEntryStartsAtBankZero := by
  intro s t i code him hentry h
  obtain ⟨m, hmap, rfl⟩ := exists_mode_of_code him
  rw [exec_map hmap] at h ⊢
  cases h
  have hzero := entryBank_of_entry s hentry
  refine ⟨congrArg _ ?sameCommit, commitMap_lastmode s m, fun hkd hku hxkd hxku => ?noEdge⟩
  case sameCommit =>
    exact commitMap_withMapper ((entryBank_withMapper_zero s.evt s.evtCnt).trans hzero.symm)
  case noEdge =>
    obtain ⟨hbank, hevents⟩ := map_no_edge (m := m) hkd hku hxkd hxku
    exact ⟨by rw [commitMap_evtCnt, hevents]; rfl, by rw [commitMap_bank, hbank, hzero]⟩

section BankKeydown

/-- Bit `i` of the expansion operand, or of the bank keys, is bit `i` of its bus. -/
theorem expBits_getLsbD (v : Word) {i : Nat} (hi : i < 4) : (expBits v).getLsbD i = v.getLsbD i := by
  simp [expBits, hi]

/-- The lowest set bit of a bus is that of its low 4 bits, where it is among them. -/
theorem lowestBit_expBits {v : Word} {k : Nat} (hk : k < 4) (h : LowestBit v k) : LowestBit (expBits v) k := by
  obtain ⟨-, hset, hlow⟩ := h
  exact ⟨hk, by rw [expBits_getLsbD v hk, hset],
    fun j hj => by rw [expBits_getLsbD v (Nat.lt_trans hj hk), hlow j hj]⟩

/-- A mask with a set bit is not empty. -/
theorem ne_zero_of_lowestBit {w : Nat} {m : BitVec w} {k : Nat} (h : LowestBit m k) : m ≠ 0#w := by
  rintro rfl
  simpa using h.2.1

/-- The bank-select events of a keydown without a keyup: the forced note-off only where another held bank is left
(42_bank_mapper R179). -/
theorem bankSelectEvents_keydown {bsd : ExpMask} (hd : bsd ≠ 0#4) (idBase : Nat) (b nb : BankNo) (bss : ExpMask) :
    bankSelectEvents idBase b nb bsd 0#4 bss =
      (if nb ≠ b ∧ bss.getLsbD b.toNat = true then [(false, idBase + b.toNat)] else []) ++
        [(true, idBase + nb.toNat)] := by
  simp [bankSelectEvents, hd]

end BankKeydown

/-- Settles O38: with no keyup the bank-select events of MAP.INT come first, and they are those of the keydown. -/
theorem bankKeydownSelectsLowest : Obligations.BankKeydownSelectsLowest := by
  intro s nb hmode hlow hku
  have hsel := lowestBit_expBits nb.isLt hlow
  have hd := ne_zero_of_lowestBit hsel
  obtain ⟨t, ht, hbank, -, ⟨-, -, hentry, -⟩, -⟩ :=
    mapIntEvents s _ _ _ _ nb rfl rfl rfl rfl (.inr (expBits_eq_ofNat s.pins.d0 ▸ ⟨hd, hsel⟩))
  refine ⟨t, ht, hbank, ?_⟩
  rw [if_pos hmode, hku] at hentry
  simp only [← expBits_eq_ofNat] at hentry
  rw [show expBits 0#16 = 0#4 from rfl, bankSelectEvents_keydown hd, expBits_getLsbD _ s.bank.isLt] at hentry
  split
  · next hforced =>
    rw [if_pos hforced] at hentry
    exact ⟨by simpa using hentry 0 _ (by decide) rfl, by simpa [Nat.add_assoc] using hentry 1 _ (by decide) rfl⟩
  · next hfree =>
    rw [if_neg hfree] at hentry
    simpa [Nat.add_assoc] using hentry 0 _ (by decide) rfl

/-- Settles O39: a MAP's commit fills the buffer, and every other command's write leaves it out. -/
theorem onlyMapWritesTheBuffer : Obligations.OnlyMapWritesTheBuffer := by
  refine ⟨fun s t i m him h => ?map, fun i s t hi h => ?other⟩
  case map =>
    rw [exec_map him] at h
    cases h
    exact commitMap_bufferHolds s m
  case other =>
    rcases exec_next_cases h with ⟨-, rfl⟩ | ⟨-, rfl⟩ | ⟨-, -, -, rfl⟩ | ⟨-, -, -, rfl⟩ | ⟨-, -, rfl⟩ |
      ⟨-, -, rfl⟩ | ⟨-, rfl⟩ | ⟨-, rfl⟩ | ⟨-, g, -, rfl⟩ | ⟨m, hm, -⟩
    iterate 9 exact ⟨rfl, rfl⟩
    exact absurd (mem_of_mapCommands hm) hi

section EventBounds

variable {s : State} {m : BankMode}

/-- Lists filtered by two conditions that exclude each other are together no longer than the list filtered by a
condition that both imply. -/
theorem length_filter_add_le {α : Type} {p q r : α → Bool} (hp : ∀ a, p a = true → r a = true)
    (hq : ∀ a, q a = true → r a = true) (hpq : ∀ a, p a = true → q a = false) (l : List α) :
    (l.filter p).length + (l.filter q).length ≤ (l.filter r).length := by
  rw [← List.countP_eq_length_filter, ← List.countP_eq_length_filter,
    List.length_eq_countP_add_countP p (l := l.filter r), List.countP_filter, List.countP_filter]
  refine Nat.add_le_add (List.countP_mono_left fun a _ ha => ?_) (List.countP_mono_left fun a _ ha => ?_)
  · simp [ha, hp a ha]
  · have hnot : p a ≠ true := fun hpa => by simp [hpq a hpa] at ha
    simp [hnot, hq a ha]

/-- A bit of one of two disjoint masks is not a bit of the other. -/
theorem getLsbD_of_and_eq_zero {w : Nat} {u v : BitVec w} (h : u &&& v = 0#w) {i : Nat} (hu : u.getLsbD i = true) :
    v.getLsbD i = false := by
  have hboth : (u.getLsbD i && v.getLsbD i) = false := by rw [← BitVec.getLsbD_and, h, BitVec.getLsbD_zero]
  rwa [hu, Bool.true_and] at hboth

/-- Where no key has both edges, each note key has at most one event (42_bank_mapper R186). -/
theorem noteKeyEvents_length_add_le {ku kd : GridMask} (h : kd &&& ku = 0#16) (base : Nat) (nk : GridMask) :
    (noteKeyEvents false base nk ku).length + (noteKeyEvents true base nk kd).length ≤
      ((List.range 16).filter nk.getLsbD).length := by
  simp only [noteKeyEvents_eq, List.length_map]
  refine length_filter_add_le (fun i hi => ?offKey) (fun i hi => ?onKey) (fun i hi => ?oneEdge) _
  case offKey => exact (Bool.and_eq_true_iff.1 hi).1
  case onKey => exact (Bool.and_eq_true_iff.1 hi).1
  case oneEdge =>
    have hdown : kd.getLsbD i = false :=
      getLsbD_of_and_eq_zero ((BitVec.and_comm ..).trans h) (Bool.and_eq_true_iff.1 hi).2
    rw [hdown, Bool.and_false]

/-- Where no selector is both released and held, a poll has no two note-offs of the active bank. -/
theorem bankSelect_length_le {idBase : Nat} {b : BankNo} {bsd bsu bss : ExpMask} (h : bsu &&& bss = 0#4) :
    (keyupEvents idBase b bsu).length + (keydownEvents idBase b bsd bss).length ≤ 2 := by
  cases hup : bsu.getLsbD b.toNat with
  | false =>
    have hnone : keyupEvents idBase b bsu = [] := by simp [keyupEvents, hup]
    rw [hnone, List.length_nil, Nat.zero_add]
    exact keydownEvents_length_le idBase b bsd bss
  | true =>
    have hheld : bss.getLsbD b.toNat = false := getLsbD_of_and_eq_zero h hup
    have hkeydown : (keydownEvents idBase b bsd bss).length ≤ 1 := by
      simp only [keydownEvents, hheld]
      split <;> simp
    have hkeyup := keyupEvents_length_le idBase b bsu
    omega

/-- For consistent grid operands a MAP has at most its bank-select events and one event for each note key. -/
theorem mapEvents_length_le_of_consistent (h : s.pins.d0 &&& s.pins.d1 = 0#16) {bank keys : Nat}
    (hbank : (keyupEvents s.cfgBankNoteBase (s.entryBank m) (s.selectors m).bsu).length +
      (keydownEvents s.cfgBankNoteBase (s.entryBank m) (s.selectors m).bsd (s.selectors m).bss).length ≤ bank)
    (hkeys : ((List.range 16).filter (s.selectors m).nk.getLsbD).length = keys) :
    (s.mapEvents m).length ≤ bank + keys := by
  have hnotes := noteKeyEvents_length_add_le h
    (s.cfgBaseNote + (bankAfter (s.entryBank m) (s.selectors m).bsd).toNat * (s.selectors m).stride)
    (s.selectors m).nk
  simp only [State.mapEvents, List.length_append, State.opKd, State.opKu]
  omega

/-- A bound on a MAP's events that 5 bits hold bounds `EVT_CNT` (42_bank_mapper R184). -/
theorem evtCnt_le_of_length_le {i : Instr} {t : State} {n : Nat} (hi : (i, m) ∈ mapCommands)
    (h : exec i s = .next t) (hn : n < 32) (hlen : (s.mapEvents m).length ≤ n) : t.evtCnt.toNat ≤ n := by
  rw [exec_map hi] at h
  cases h
  rw [commitMap_evtCnt, eventCount_toNat_of_lt s m (Nat.lt_of_le_of_lt hlen hn)]
  exact hlen

end EventBounds

/-- Settles O40: at most 3 bank-select events, none in Off mode and 2 for consistent expansion operands, and one
event for each of the mode's note keys. -/
theorem eventCountBound : Obligations.EventCountBound := by
  intro s t hgrid
  have hall : ((List.range 16).filter (0xFFFF#16).getLsbD).length = 16 := by decide
  have hfrom4 : ((List.range 16).filter (0xFFF0#16).getLsbD).length = 12 := by decide
  have hext : ((List.range 16).filter (s.selectors .external).nk.getLsbD).length = 16 := by
    rw [selectors_external]; exact hall
  have hthree := fun m => Nat.add_le_add
    (keyupEvents_length_le s.cfgBankNoteBase (s.entryBank m) (s.selectors m).bsu)
    (keydownEvents_length_le s.cfgBankNoteBase (s.entryBank m) (s.selectors m).bsd (s.selectors m).bss)
  refine ⟨fun h => ?off, fun h => ?internal, fun h => ?external, fun h hexp => ?consistent⟩
  case off =>
    have hnone : (keyupEvents s.cfgBankNoteBase (s.entryBank .off) 0#4).length +
        (keydownEvents s.cfgBankNoteBase (s.entryBank .off) 0#4 0#4).length ≤ 0 := by
      simp [keyupEvents, keydownEvents]
    exact evtCnt_le_of_length_le (m := .off) (by simp [mapCommands]) h (by decide)
      (mapEvents_length_le_of_consistent hgrid hnone hall)
  case internal =>
    exact evtCnt_le_of_length_le (m := .internal) (by simp [mapCommands]) h (by decide)
      (mapEvents_length_le_of_consistent hgrid (hthree .internal) hfrom4)
  case external =>
    exact evtCnt_le_of_length_le (m := .external) (by simp [mapCommands]) h (by decide)
      (mapEvents_length_le_of_consistent hgrid (hthree .external) hext)
  case consistent =>
    have hsel : (s.selectors .external).bsu &&& (s.selectors .external).bss = 0#4 := by
      rw [selectors_external]
      split
      · exact (BitVec.extractLsb'_and ..).symm.trans (by rw [hexp]; rfl)
      · rfl
    exact evtCnt_le_of_length_le (m := .external) (by simp [mapCommands]) h (by decide)
      (mapEvents_length_le_of_consistent hgrid (bankSelect_length_le hsel) hext)

/-- The entry of an event whose note fits 8 bits has exactly its note and its on bit (10_state R34). -/
theorem eventEntry_fields {e : NoteEvent} (h : e.note < 256) :
    ((eventEntry e).extractLsb' 0 8).toNat = e.note ∧ (eventEntry e).getLsbD 8 = e.on := by
  constructor
  · rw [eventEntry_eq e h, BitVec.extractLsb'_toNat, BitVec.toNat_ofNat, Nat.shiftRight_zero]
    split <;> omega
  · rw [eventEntry, BitVec.getLsbD_append]
    simp

/-- Settles O41: 190 fits 8 bits, so the entry of every event has its fields. -/
theorem notesFitEightBits : Obligations.NotesFitEightBits := by
  intro s m e he
  have hle := mapEvents_note_le he
  exact ⟨hle, eventEntry_fields (by omega)⟩

/-- Settles O42: `NOTE_OOR` is joined with the events' flag, and the buffer holds each event's full note. -/
theorem noteOorIsSticky : Obligations.NoteOorIsSticky := by
  intro s t i m him h
  rw [exec_map him] at h
  cases h
  obtain ⟨-, -, hentry, -⟩ := commitMap_bufferHolds s m
  refine ⟨?flag, fun k e hk he => hentry k (e.on, e.note) hk (by rw [List.getElem?_map, he]; rfl)⟩
  rw [commitMap_noteOor, Bool.or_eq_true, anyNoteOutOfRange, List.any_eq_true]
  simp only [decide_eq_true_eq]
  rfl

section Independence

variable (s : State) (gs : GStateId) (act : ActionCode) (key : GridMask) (out : ActionCode)

/-- Flagging notes commutes with a write of the gesture registers: it reads and writes `STATUS` alone. -/
theorem flagNotes_withGesture (ev : List NoteEvent) :
    (s.withGesture gs act key out).flagNotes ev = (s.flagNotes ev).withGesture gs act key out := by
  unfold State.flagNotes
  split <;> rfl

/-- A MAP's commit neither reads nor writes the gesture registers (42_bank_mapper R190). -/
theorem commitMap_withGesture (m : BankMode) :
    (s.withGesture gs act key out).commitMap m = (s.commitMap m).withGesture gs act key out := by
  have hevents : (s.withGesture gs act key out).mapEvents m = s.mapEvents m := rfl
  simp only [State.commitMap, hevents, ← flagNotes_withGesture]
  rfl

/-- GESTURE neither reads nor writes the mapper's registers (42_bank_mapper R190). -/
theorem exec_gesture_withMapper {t : State} (b : BankNo) (mode : BitVec 2) (ev : List EvtEntry) (n : BitVec 5)
    (h : exec .gesture s = .next t) :
    exec .gesture (s.withMapper b mode ev n) = .next (t.withMapper b mode ev n) := by
  cases h; rfl

end Independence

/-- Settles O44: each MAP commutes with a write of the gesture registers, and GESTURE with one of the mapper's. -/
theorem mapperAndGestureAreIndependent : Obligations.MapperAndGestureAreIndependent := by
  refine ⟨fun i s t gs act key out hi h => ?map, fun s t b mode ev n h => ?gesture⟩
  case map =>
    obtain ⟨m, hm⟩ := exists_mode_of_mem hi
    rw [exec_map hm] at h ⊢
    cases h
    exact congrArg _ (commitMap_withGesture s gs act key out m)
  case gesture => exact exec_gesture_withMapper s b mode ev n h

end Sys2Proof.Machine
end

section
/-! SUPPORT. The opcodes that use no field, each with one legal word; then NOP and CLRSTAT
(spec/43_control.md R200, R201). -/

namespace Sys2Proof.Machine

/-- The opcode is the word's number without its low twelve bits (30_encoding R71). -/
theorem fieldOp_toNat (w : Word) : (fieldOp w).toNat = w.toNat / 4096 := by
  rw [fieldOp, BitVec.extractLsb'_toNat, Nat.shiftRight_eq_div_pow]
  omega

/-- The opcodes of NOP, GESTURE and CLRSTAT, which use no field (30_encoding R72, R73). -/
def fieldlessOpcodes : List (BitVec 4) := [0#4, 4#4, 6#4]

/-- These opcodes use neither `CH` nor `MODE`, and none of them is reserved (30_encoding R72, R73). -/
theorem fieldlessOpcodes_use_no_field :
    ∀ op ∈ fieldlessOpcodes, usesCh op = false ∧ usesMode op = false ∧ op.toNat < 7 := by decide

section Fieldless

variable {w : Word}

/-- A legal word of a fieldless opcode is the opcode alone (30_encoding R73). -/
theorem eq_packF1_of_fieldless {p : Port} (hop : fieldOp w ∈ fieldlessOpcodes) (h : illegalCause p w = none) :
    w = packF1 (fieldOp w) 0 0 0 := by
  obtain ⟨hch, hmode, -⟩ := fieldlessOpcodes_use_no_field _ hop
  obtain ⟨hch0, hmode0⟩ := unused_fields_zero h
  calc w = packF1 (fieldOp w) (fieldCh w) (fieldMode w) 0 := eq_packF1_of_rsv_zero w (fieldRsv_of_no_cause h)
    _ = packF1 (fieldOp w) 0 0 0 := by rw [hch0 hch, hmode0 hmode]; rfl

/-- The consumer port can find nothing but a stray field in a word of a fieldless opcode: the tests before that one
in the order of 60_exceptions R222 fail. -/
theorem illegalCause_of_fieldless (hop : fieldOp w ∈ fieldlessOpcodes) :
    illegalCause .consumer w = if strayField w then some .field else none := by
  obtain ⟨-, hmode, hlt⟩ := fieldlessOpcodes_use_no_field _ hop
  have hsample : ¬ isSampleWord w = true := by
    rw [isSampleWord_iff]
    rintro (rfl | rfl) <;> exact absurd hop (by decide)
  have hreserved : ¬ (fieldOp w == 5#4 && fieldMode w == 3#2) = true := by
    rw [show (fieldOp w == 5#4) = false from hmode]
    exact Bool.false_ne_true
  rw [illegalCause, if_neg hsample, if_neg (Nat.not_le.2 hlt), if_neg hreserved]

/-- Every word of a fieldless opcode but the opcode alone is illegal with cause FIELD (30_encoding R73). -/
theorem decode_consumer_of_fieldless (hop : fieldOp w ∈ fieldlessOpcodes) (hw : w ≠ packF1 (fieldOp w) 0 0 0) :
    decode .consumer w = .illegal .field := by
  have hcause := illegalCause_of_fieldless hop
  rw [decode_illegal_iff, hcause, if_pos]
  by_contra hstray
  exact hw (eq_packF1_of_fieldless hop (hcause.trans (if_neg hstray)))

end Fieldless

/-- Every word of NOP's opcode but NOP's own is illegal with cause FIELD (43_control R200). -/
theorem decode_consumer_of_stray_nop {w : Word} (hlt : w.toNat < 4096) (hne : w ≠ encode .nop) :
    decode .consumer w = .illegal .field := by
  have hop : fieldOp w = 0#4 := BitVec.eq_of_toNat_eq ((fieldOp_toNat w).trans (Nat.div_eq_of_lt hlt))
  apply decode_consumer_of_fieldless <;> rw [hop]
  · decide
  · exact hne

/-- Every word of CLRSTAT's opcode but CLRSTAT's own is illegal with cause FIELD (43_control R201). -/
theorem decode_consumer_of_stray_clrstat {w : Word} (hgt : 0x6000 < w.toNat) (hlt : w.toNat < 0x7000) :
    decode .consumer w = .illegal .field := by
  have hop : fieldOp w = 6#4 := BitVec.eq_of_toNat_eq ((fieldOp_toNat w).trans (by rw [BitVec.toNat_ofNat]; omega))
  apply decode_consumer_of_fieldless <;> rw [hop]
  · decide
  · rintro rfl
    exact absurd hgt (by decide)

/-- Raising Illegal on a cleared `STATUS` records its own cause, and `NOTE_OOR` stays cleared (60_exceptions R221). -/
theorem raiseIllegal_clearStatus (c : Cause) (s : State) :
    raiseIllegal c (clearStatus s) = s.withStatus (packStatus true false (causeCode c)) := by
  have hoor : (clearStatus s).noteOor = false := setStatusFields_noteOor ..
  have hflag : (clearStatus s).illegalFlag = false := setStatusFields_illegalFlag ..
  rw [raiseIllegal_eq, hoor, hflag]
  rfl

/-- An illegal producer word in CLRSTAT's cycle is recorded on the cleared `STATUS`, and its cause with it
(43_control R201). -/
theorem step_clrstat_with_illegal_producer {s : State} {w : Word} {c : Cause} (hrst : s.pins.rst = false)
    (hc : s.pins.ccmd = some (encode .clrstat)) (hp : s.pins.pcmd = some w) (hw : decode .producer w = .illegal c) :
    step s = .next (advanceCycle (s.withStatus (packStatus true false (causeCode c)))) := by
  have hclear : runPort .consumer (some (encode .clrstat)) s = .next (clearStatus s) :=
    runPort_of_legal (decode_encode .clrstat) s
  rw [step_of_rst_low hrst, hc, hp, hclear, andThen_of_next, runPort_of_illegal hw, andThen_of_next,
    raiseIllegal_clearStatus]

/-- Settles O9: NOP and an idle port answer the state itself, and opcode 0 uses no field, so a nonzero one is
stray. -/
theorem nopChangesNothing : Obligations.NopChangesNothing :=
  ⟨fun _ => rfl, runPort_idle, decode_encode .nop, decode_encode_of_port_ne (i := .nop) (by decide),
    fun _ hlt hne => decode_consumer_of_stray_nop hlt hne⟩

/-- Settles O10: clearing writes `STATUS` alone, a stray field raises Illegal in its place, and the producer's
Illegal comes after it. -/
theorem clrstatClearsStatus : Obligations.ClrstatClearsStatus := by
  refine ⟨fun s => congrArg Host.Outcome.next (clearStatus_eq s), decode_encode .clrstat,
    decode_encode_of_port_ne (i := .clrstat) (by decide), fun w hgt hlt => ?stray,
    fun s w hrst hc hp hG hX => ?producer⟩
  case stray =>
    have hfield := decode_consumer_of_stray_clrstat hgt hlt
    exact ⟨hfield, fun s => ⟨_, runWord_of_illegal .field s hfield, raiseIllegal_illegalFlag _ s,
      raiseIllegal_noteOor _ s, raiseIllegal_icause _ s⟩⟩
  case producer =>
    have hport : decode .producer w = .illegal .port :=
      decode_producer_of_not_sampleWord (by rw [isSampleWord_iff]; exact not_or.2 ⟨hG, hX⟩)
    refine ⟨_, step_clrstat_with_illegal_producer hrst hc hp hport, ?_⟩
    rw [advanceCycle_status]
    rfl

end Sys2Proof.Machine
end

section
/-! SUPPORT. Illegal commands and the record that `STATUS` keeps of them: the cause of a word from its number, what
raising Illegal leaves of a cycle, and that `STATUS` is sticky and inert (spec/60_exceptions.md R221 to R224). -/

namespace Sys2Proof.Machine

section Fields

variable (w : Word)

/-- The channel is bit 11 of the word's number (30_encoding R71). -/
theorem fieldCh_toNat : (fieldCh w).toNat = w.toNat / 2048 % 2 := by
  rw [fieldCh, BitVec.extractLsb'_toNat, Nat.shiftRight_eq_div_pow]

/-- The mode is bits 10:9 of the word's number (30_encoding R71). -/
theorem fieldMode_toNat : (fieldMode w).toNat = w.toNat / 512 % 4 := by
  rw [fieldMode, BitVec.extractLsb'_toNat, Nat.shiftRight_eq_div_pow]

/-- The reserved bits are the low nine of the word's number (30_encoding R71). -/
theorem fieldRsv_toNat : (fieldRsv w).toNat = w.toNat % 512 := by
  rw [fieldRsv, BitVec.extractLsb'_toNat, Nat.shiftRight_zero]

/-- The SAMPLE words by their numbers (30_encoding R75). -/
theorem isSampleWord_iff_toNat : isSampleWord w = true ↔ w.toNat = 0x1000 ∨ w.toNat = 0x1800 := by
  rw [isSampleWord_iff, ← BitVec.toNat_inj, ← BitVec.toNat_inj]
  rfl

/-- The opcodes that use `CH`, by their numbers (30_encoding R73). -/
theorem usesCh_iff_toNat (op : BitVec 4) : usesCh op = true ↔ op.toNat ∈ [1, 2, 3] := by
  revert op; decide

/-- The opcode that uses `MODE`, by its number (30_encoding R73). -/
theorem usesMode_iff_toNat (op : BitVec 4) : usesMode op = true ↔ op.toNat = 5 := by
  revert op; decide

/-- The reserved mode of MAP, by the word's number (30_encoding R79). -/
theorem reservedMode_iff_toNat : (fieldOp w == 5#4 && fieldMode w == 3#2) = true ↔
    w.toNat / 4096 = 5 ∧ w.toNat / 512 % 4 = 3 := by
  rw [Bool.and_eq_true, beq_iff_eq, beq_iff_eq, ← BitVec.toNat_inj, ← BitVec.toNat_inj, fieldOp_toNat,
    fieldMode_toNat]
  rfl

/-- A stray field, by the word's number (30_encoding R73). -/
theorem strayField_iff_toNat : strayField w = true ↔ w.toNat % 512 ≠ 0 ∨
    (w.toNat / 4096 ∉ [1, 2, 3] ∧ w.toNat / 2048 % 2 ≠ 0) ∨
    (w.toNat / 4096 ≠ 5 ∧ w.toNat / 512 % 4 ≠ 0) := by
  simp only [strayField, Bool.or_eq_true, Bool.and_eq_true, Bool.not_eq_true', ← Bool.not_eq_true, bne_iff_ne,
    usesCh_iff_toNat, usesMode_iff_toNat, Ne, ← BitVec.toNat_inj, fieldOp_toNat, fieldCh_toNat, fieldMode_toNat,
    fieldRsv_toNat, or_assoc]
  rfl

/-- The producer port's cause by the word's number (60_exceptions R222). -/
theorem illegalCause_producer_toNat : illegalCause .producer w =
    if w.toNat = 0x1000 ∨ w.toNat = 0x1800 then none else some .port := by
  simp only [illegalCause, isSampleWord_iff_toNat]

/-- The consumer port's cause by the word's number, in the order of 60_exceptions R222. -/
theorem illegalCause_consumer_toNat : illegalCause .consumer w =
    if w.toNat = 0x1000 ∨ w.toNat = 0x1800 then some .port
    else if 7 ≤ w.toNat / 4096 then some .opcode
    else if w.toNat / 4096 = 5 ∧ w.toNat / 512 % 4 = 3 then some .mode
    else if w.toNat % 512 ≠ 0 ∨
        (w.toNat / 4096 ∉ [1, 2, 3] ∧ w.toNat / 2048 % 2 ≠ 0) ∨
        (w.toNat / 4096 ≠ 5 ∧ w.toNat / 512 % 4 ≠ 0) then some .field
    else none := by
  simp only [illegalCause, isSampleWord_iff_toNat, fieldOp_toNat, reservedMode_iff_toNat, strayField_iff_toNat]

end Fields

/-- A word is legal exactly when it has no cause: the decoder answers nothing but a command or a cause
(60_exceptions R222). -/
theorem exists_decode_legal_iff (p : Port) (w : Word) :
    (∃ i, decode p w = .legal i) ↔ illegalCause p w = none := by
  constructor
  · rintro ⟨i, hi⟩
    exact ((decode_legal_iff p w i).1 hi).1
  · intro hnone
    cases hw : decode p w with
    | legal i => exact ⟨i, rfl⟩
    | illegal c =>
      rw [decode_illegal_iff, hnone] at hw
      cases hw

/-- Settles O3: the decoder answers the procedure's cause, and each of the procedure's tests is one of the word's
number. -/
theorem illegalCauseOfEveryWord : Obligations.IllegalCauseOfEveryWord :=
  ⟨rfl, rfl, rfl, rfl, fun p w => ⟨decode_illegal_iff p w, exists_decode_legal_iff p w⟩,
    illegalCause_producer_toNat, illegalCause_consumer_toNat⟩

/-- Where the consumer's port answers, the rest of the cycle is the producer's port on the state it left
(20_memory R56). -/
theorem runCommands_of_consumer_next {s t : State} (h : runPort .consumer s.pins.ccmd s = .next t) :
    runCommands s = runPort .producer s.pins.pcmd t := by
  rw [runCommands, h, andThen_of_next]

/-- Settles O6: raising Illegal is all that a port does with an illegal word, and the two ports run in sequence
whatever their words are. -/
theorem illegalChangesStatusOnly : Obligations.IllegalChangesStatusOnly := by
  refine ⟨fun p w c s hw => ?status, fun w c s t hc _ ht => ?producer, fun w c s t hp _ ht => ?consumer⟩
  case status =>
    refine ⟨_, runWord_of_illegal c s hw, raiseIllegal_illegalFlag c s, ?_, raiseIllegal_noteOor c s,
      raiseIllegal_frame c s⟩
    rw [raiseIllegal_icause]
    cases c <;> rfl
  case producer =>
    have hport : runPort .consumer s.pins.ccmd s = .next t := by rw [hc]; exact ht
    exact runCommands_of_consumer_next hport
  case consumer =>
    rw [runCommands_of_consumer_next ht, hp]
    rfl

section Sticky

variable {s t : State}

/-- A command but CLRSTAT keeps `ILLEGAL` and `ICAUSE`, and clears no `NOTE_OOR`: of the others only the MAPs write
`STATUS`, and they flag notes (60_exceptions R223). -/
theorem exec_keeps_status_fields {i : Instr} (h : exec i s = .next t) (hi : i ≠ .clrstat) :
    t.illegalFlag = s.illegalFlag ∧ t.icause = s.icause ∧ (s.noteOor = true → t.noteOor = true) := by
  rcases exec_next_cases h with ⟨-, rfl⟩ | ⟨rfl, -⟩ | ⟨-, -, -, rfl⟩ | ⟨-, -, -, rfl⟩ | ⟨-, -, rfl⟩ |
    ⟨-, -, rfl⟩ | ⟨-, rfl⟩ | ⟨-, rfl⟩ | ⟨-, g, -, rfl⟩ | ⟨m, -, rfl⟩
  · exact ⟨rfl, rfl, id⟩
  · exact absurd rfl hi
  iterate 7 exact ⟨rfl, rfl, id⟩
  exact ⟨flagNotes_illegalFlag _ _, flagNotes_icause _ _, fun hoor => by rw [commitMap_noteOor, hoor, Bool.true_or]⟩

/-- Any word but CLRSTAT's own on the consumer port keeps a set `ILLEGAL` with its cause, and a set `NOTE_OOR`
(60_exceptions R223). -/
theorem runWord_keeps_set_flags {p : Port} {w : Word} (h : runWord p w s = .next t)
    (hw : ¬(p = .consumer ∧ w = encode .clrstat)) :
    (s.illegalFlag = true → t.illegalFlag = true ∧ t.icause = s.icause) ∧
      (s.noteOor = true → t.noteOor = true) := by
  cases hdec : decode p w with
  | illegal c =>
    rw [runWord_of_illegal c s hdec] at h
    cases h
    exact ⟨fun hill => ⟨raiseIllegal_illegalFlag c s, by rw [raiseIllegal_icause, if_pos hill]⟩,
      (raiseIllegal_noteOor c s).trans⟩
  | legal i =>
    have hexec : exec i s = .next t := (runPort_of_legal hdec s).symm.trans h
    have hne : i ≠ .clrstat := by
      rintro rfl
      obtain ⟨hp, hword⟩ := (decode_eq_legal_iff ..).1 hdec
      exact hw ⟨hp.symm, hword⟩
    obtain ⟨hill, hcause, hoor⟩ := exec_keeps_status_fields hexec hne
    exact ⟨fun hset => ⟨hill.trans hset, hcause⟩, hoor⟩

end Sticky

/-- The value of `STATUS` enters a MAP's result nowhere but in `STATUS` itself (60_exceptions R223). -/
theorem commitMap_withStatus (s : State) (m : BankMode) (v : BitVec 8) :
    ((s.withStatus v).commitMap m).withStatus (s.commitMap m).status = s.commitMap m := by
  obtain ⟨x, hx⟩ := commitMap_eq s m
  obtain ⟨y, hy⟩ := commitMap_eq (s.withStatus v) m
  rw [hx, hy]
  rfl

/-- No command lets `STATUS` decide anything else: with another value in it a command answers the same state but for
`STATUS` (60_exceptions R223). -/
theorem exec_withStatus {i : Instr} {s t : State} (v : BitVec 8) (h : exec i s = .next t) :
    ∃ u, exec i (s.withStatus v) = .next u ∧ u.withStatus t.status = t := by
  rcases exec_next_cases h with ⟨rfl, rfl⟩ | ⟨rfl, rfl⟩ | ⟨rfl, hl, hj, rfl⟩ | ⟨rfl, hl, hj, rfl⟩ |
    ⟨rfl, hl, rfl⟩ | ⟨rfl, hl, rfl⟩ | ⟨rfl, rfl⟩ | ⟨rfl, rfl⟩ | ⟨rfl, g, rfl, rfl⟩ | ⟨m, hm, rfl⟩
  iterate 2 exact ⟨_, rfl, rfl⟩
  · exact ⟨_, (execSampleG_next_iff _ _).2 ⟨hl, hj, rfl⟩, rfl⟩
  · exact ⟨_, (execSampleX_next_iff _ _).2 ⟨hl, hj, rfl⟩, rfl⟩
  · exact ⟨_, (execReadG_next_iff _ _).2 ⟨hl, rfl⟩, rfl⟩
  · exact ⟨_, (execReadX_next_iff _ _).2 ⟨hl, rfl⟩, rfl⟩
  iterate 3 exact ⟨_, rfl, rfl⟩
  exact ⟨_, exec_map hm _, commitMap_withStatus s m v⟩

/-- Settles O7: of the legal commands CLRSTAT alone clears a field or writes `ICAUSE`, an illegal word keeps the first
cause, and no command's other effects depend on `STATUS`. -/
theorem statusFieldsAreStickyAndInert : Obligations.StatusFieldsAreStickyAndInert := by
  refine ⟨fun _ _ _ _ h hw => runWord_keeps_set_flags h hw, fun i s t h hi => ?legal,
    fun _ _ _ v h => exec_withStatus v h⟩
  obtain ⟨hill, hcause, -⟩ := exec_keeps_status_fields h hi
  exact ⟨hill, hcause⟩

/-- A cycle with illegal words on both ports raises Illegal for the consumer's word and then for the producer's
(20_memory R56, 60_exceptions R221). -/
theorem step_of_two_illegal {s : State} {wc wp : Word} {cc cp : Cause} (hrst : s.pins.rst = false)
    (hc : s.pins.ccmd = some wc) (hp : s.pins.pcmd = some wp) (hcc : decode .consumer wc = .illegal cc)
    (hcp : decode .producer wp = .illegal cp) :
    step s = .next (advanceCycle (raiseIllegal cp (raiseIllegal cc s))) := by
  rw [step_of_rst_low hrst, hc, hp, runPort_of_illegal hcc, andThen_of_next, runPort_of_illegal hcp,
    andThen_of_next]

/-- Settles O8: the consumer's Illegal is raised first, and the producer's finds `ILLEGAL` set and keeps its cause. -/
theorem consumerCauseIsRecorded : Obligations.ConsumerCauseIsRecorded := by
  intro s wc wp cc cp hrst hc hp hcc hcp hclear
  refine ⟨_, step_of_two_illegal hrst hc hp hcc hcp, ?flag, ?cause⟩
  case flag => rw [advanceCycle_illegalFlag, raiseIllegal_illegalFlag]
  case cause =>
    calc (advanceCycle (raiseIllegal cp (raiseIllegal cc s))).icause
        = (raiseIllegal cp (raiseIllegal cc s)).icause := advanceCycle_icause _
      _ = (raiseIllegal cc s).icause := by rw [raiseIllegal_icause, if_pos (raiseIllegal_illegalFlag cc s)]
      _ = causeCode cc := by rw [raiseIllegal_icause, hclear]; rfl

end Sys2Proof.Machine
end

section
/-! SUPPORT. The reset action and a cycle with `RST` high (spec/70_reset_and_hazards.md R250, R251); then SAMPLE and
READ where the ring has not the slot (log entry 5), and both in one cycle (R261). -/

namespace Sys2Proof.Machine

section Reset

/-- Settles O47: the rings and the event buffer are filled with zeros, and every other register is read off. -/
theorem resetValues : Obligations.ResetValues := by
  intro s
  have hzero : ∀ {w n : Nat}, ∀ v ∈ List.replicate n 0#w, v = 0#w := fun _ => List.eq_of_mem_replicate
  exact ⟨List.length_replicate, hzero, List.length_replicate, hzero, rfl, rfl, rfl, rfl, rfl, rfl, rfl, rfl, rfl, rfl,
    rfl, rfl, rfl, rfl, rfl, rfl, List.length_replicate, hzero, rfl, rfl, rfl, rfl⟩

/-- A cycle with `RST` high is the reset action, and then the next pins (70_reset R251). -/
theorem step_of_rst_high {s : State} (h : s.pins.rst = true) : step s = .next (advanceCycle (resetAction s)) := by
  have hcycle : runCycle s = .next (resetAction s) := if_pos h
  rw [step, cycle, hcycle, andThen_of_next]

/-- Settles O48: the reset action takes nothing of the old state but the depth, the inputs and the model's counter. -/
theorem resetCycleDiscardsCommands : Obligations.ResetCycleDiscardsCommands := by
  intro s hrst
  refine ⟨_, step_of_rst_high hrst, ?_⟩
  rw [advanceCycle_eq, resetAction_eq]

/-- The rings are in order at reset: `DEPTH` slots each, both pointers at slot 0 (70_reset R250). -/
theorem ringsInv_initial {d : Nat} (hd : depthLegal d = true) : RingsInv (State.initial d) where
  depth_legal := hd
  rings_wf := memoryWf_initial d
  wpG_lt := ((depthLegal_iff d).1 hd).1
  wpX_lt := ((depthLegal_iff d).1 hd).1

/-- Settles O55: the rings' part holds at every legal depth, and the register groups' part at every depth. -/
theorem invHoldsAtReset : Obligations.InvHoldsAtReset :=
  ⟨rfl, fun _ => rfl, fun d hd => (blockInv_iff _).2 ⟨ringsInv_initial hd, registersLegal_initial d⟩⟩

end Reset

section MissingSlot

/-- The window AND finds no value exactly when the ring has not `DEPTH` slots. -/
theorem windowAnd_eq_none_iff {w : Nat} (d : Nat) (ring : List (BitVec w)) :
    windowAnd d ring = none ↔ ring.length ≠ d := by
  rw [Option.eq_none_iff_forall_ne_some]
  simp only [ne_eq, windowAnd_eq_some_iff]
  simp

variable {s : State}

/-- SAMPLE.G faults where its ring write finds no slot (log entry 5). -/
theorem exec_sampleG_of_no_slot (h : s.ringG.length ≠ s.depth ∨ s.depth ≤ s.wpG.toNat) :
    exec .sampleG s = .fault .noSuchSlot := by
  simp only [exec, execSampleG, (ringWrite_eq_none_iff ..).2 h]

/-- SAMPLE.X faults where its ring write finds no slot (log entry 5). -/
theorem exec_sampleX_of_no_slot (h : s.ringX.length ≠ s.depth ∨ s.depth ≤ s.wpX.toNat) :
    exec .sampleX s = .fault .noSuchSlot := by
  simp only [exec, execSampleX, (ringWrite_eq_none_iff ..).2 h]

/-- READ.G faults where its window has not all slots (log entry 5). -/
theorem exec_readG_of_no_window (h : s.ringG.length ≠ s.depth) : exec .readG s = .fault .noSuchSlot := by
  simp only [exec, execReadG, (windowAnd_eq_none_iff ..).2 h]

/-- READ.X faults where its window has not all slots (log entry 5). -/
theorem exec_readX_of_no_window (h : s.ringX.length ≠ s.depth) : exec .readX s = .fault .noSuchSlot := by
  simp only [exec, execReadX, (windowAnd_eq_none_iff ..).2 h]

end MissingSlot

/-- Settles O12: the ring accesses of SAMPLE and READ find nothing in such states. -/
theorem missingSlotStops : Obligations.MissingSlotStops :=
  fun _ => ⟨exec_sampleG_of_no_slot, exec_sampleX_of_no_slot, exec_readG_of_no_window, exec_readX_of_no_window⟩

/-- A cycle with a command on each port runs the consumer's and, on the state it left, the producer's
(20_memory R56). -/
theorem step_of_two_commands {s u v : State} {i j : Instr} (hrst : s.pins.rst = false)
    (hc : s.pins.ccmd = some (encode i)) (hp : s.pins.pcmd = some (encode j))
    (hi : i.port = .consumer) (hj : j.port = .producer) (hu : exec i s = .next u) (hv : exec j u = .next v) :
    step s = .next (advanceCycle v) := by
  have hconsumer : runPort .consumer (some (encode i)) s = .next u :=
    (runPort_of_legal (hi ▸ decode_encode i) s).trans hu
  have hproducer : runPort .producer (some (encode j)) u = .next v :=
    (runPort_of_legal (hj ▸ decode_encode j) u).trans hv
  rw [step_of_rst_low hrst, hc, hp, hconsumer, andThen_of_next, hproducer, andThen_of_next]

/-- Settles O52: READ writes no ring and SAMPLE no stable state, and READ runs first. -/
theorem readSeesRingBeforeSample : Obligations.ReadSeesRingBeforeSample := by
  refine ⟨fun s hrst hc hp hlen hwp => ?grid, fun s hrst hc hp hlen hwp => ?expansion⟩
  case grid =>
    have hread := (execReadG_next_iff s _).2 ⟨hlen, rfl⟩
    have hsample := (execSampleG_next_iff (s.withStateG (s.ringG.foldl (· &&& ·) (BitVec.allOnes 16))) _).2
      ⟨hlen, hwp, rfl⟩
    refine ⟨_, _, step_of_two_commands (i := .readG) (j := .sampleG) hrst hc hp rfl rfl hread hsample, hread,
      advanceCycle_stateG _, ?_, fun k hk => ?_⟩
    · rw [advanceCycle_ringG]
      exact List.getElem?_set_self (hlen ▸ hwp)
    · rw [advanceCycle_ringG]
      exact List.getElem?_set_ne hk.symm
  case expansion =>
    have hread := (execReadX_next_iff s _).2 ⟨hlen, rfl⟩
    have hsample := (execSampleX_next_iff (s.withStateX (s.ringX.foldl (· &&& ·) (BitVec.allOnes 4))) _).2
      ⟨hlen, hwp, rfl⟩
    refine ⟨_, _, step_of_two_commands (i := .readX) (j := .sampleX) hrst hc hp rfl rfl hread hsample, hread,
      advanceCycle_stateX _, ?_, fun k hk => ?_⟩
    · rw [advanceCycle_ringX, ← expBits_eq_ofNat]
      exact List.getElem?_set_self (hlen ▸ hwp)
    · rw [advanceCycle_ringX]
      exact List.getElem?_set_ne hk.symm

end Sys2Proof.Machine
end

section
/-! SUPPORT. A listing as the sequence of its parts, each with the registers that it leaves: POLL.G, POLL.X, GESTURE.G
and the two MAP.EXT lines of a canonical poll (spec/30_encoding.md R81, R82; spec/70_reset_and_hazards.md R255). -/

namespace Sys2Proof.Machine

section Listings

/-- The state with other inputs, in this cycle and to come. -/
def State.withInputs (s : State) (p : Pins) (ps : List Pins) : State :=
  (s.withPins p).withUpcoming ps

/-- A listing runs from `s` and leaves the registers of `u`. Where no cycle is to come, none is after it, and the
configuration inputs are held (log entries 4 and 14). -/
def ListingLeaves (lines : List Line) (s u : State) : Prop :=
  ∃ p ps, runListing lines s = .next (u.withInputs p ps) ∧
    (s.upcoming = [] → ps = [] ∧ p.cfg = s.pins.cfg)

variable {s u v : State}

/-- A listing in two parts runs the first and, from where it ends, the second. -/
theorem runListing_append (before after : List Line) (s : State) :
    runListing (before ++ after) s = andThen (runListing before s) (runListing after) := by
  induction before generalizing s with
  | nil => rfl
  | cons l rest ih => rw [List.cons_append, runListing, runListing, andThen_assoc, funext ih]

/-- The empty listing leaves the state as it is. -/
theorem listingLeaves_nil (s : State) : ListingLeaves [] s s :=
  ⟨s.pins, s.upcoming, rfl, fun h => ⟨h, rfl⟩⟩

/-- A listing in two parts leaves what the second part makes of the first part's registers, whatever the inputs. -/
theorem ListingLeaves.append {before after : List Line} (h : ListingLeaves before s u)
    (h' : ∀ p ps, ListingLeaves after (u.withInputs p ps) (v.withInputs p ps)) :
    ListingLeaves (before ++ after) s v := by
  obtain ⟨p, ps, hrun, hheld⟩ := h
  obtain ⟨q, qs, hrun', hheld'⟩ := h' p ps
  refine ⟨q, qs, by rw [runListing_append, hrun, andThen_of_next]; exact hrun', fun hs => ?_⟩
  obtain ⟨hps, hcfg⟩ := hheld hs
  obtain ⟨hqs, hcfg'⟩ := hheld' hps
  exact ⟨hqs, hcfg'.trans hcfg⟩

/-- Where no cycle is to come, the second part of a listing finds the first part's registers and the configuration
inputs as they were (log entries 4 and 14). -/
theorem ListingLeaves.then_run {before : List Line} (h : ListingLeaves before s u) (hs : s.upcoming = []) :
    ∃ p, p.cfg = s.pins.cfg ∧ ∀ {after t}, ListingLeaves after (u.withInputs p []) t →
      ∃ q qs, runListing (before ++ after) s = .next (t.withInputs q qs) := by
  obtain ⟨p, ps, hrun, hheld⟩ := h
  obtain ⟨rfl, hcfg⟩ := hheld hs
  refine ⟨p, hcfg, fun h' => ?_⟩
  obtain ⟨q, qs, hrun', -⟩ := h'
  exact ⟨q, qs, by rw [runListing_append, hrun, andThen_of_next, hrun']⟩

/-- A line with a command on the consumer port leaves the registers that the command makes on the line's pins. -/
theorem listingLeaves_consumer {i : Instr} {c : ConsumerDrive} {p : Pins} (hd : decode .consumer c.word = .legal i)
    (hp : s.linePins { consumer := some c } = some p) (hx : exec i (s.withPins p) = .next (u.withPins p)) :
    ListingLeaves [{ consumer := some c }] s u := by
  obtain ⟨-, -, hupcoming⟩ := exec_keeps_inputs hx
  obtain ⟨-, -, -, hcfg, -⟩ := linePins_consumer hp
  refine ⟨s.upcoming.headD p.released, s.upcoming.tail, ?run, fun hs => ?held⟩
  case run =>
    rw [runListing, runLine_consumer hd hp, hx, andThen_of_next, andThen_of_next, advanceCycle_eq, hupcoming]
    rfl
  case held =>
    rw [hs]
    exact ⟨rfl, hcfg⟩

end Listings

section Groups

/-- The registers of channel G. -/
def State.channelG (s : State) : ChannelRegs 16 :=
  { ring := s.ringG, wp := s.wpG, state := s.stateG, prev := s.prevG, kd := s.kdG, ku := s.kuG }

/-- The registers of channel X. -/
def State.channelX (s : State) : ChannelRegs 4 :=
  { ring := s.ringX, wp := s.wpX, state := s.stateX, prev := s.prevX, kd := s.kdX, ku := s.kuX }

/-- A channel after a READ that gives `v` and a CALC (40_debounce R102, R104). -/
def ChannelRegs.polled {w : Nat} (c : ChannelRegs w) (v : BitVec w) : ChannelRegs w :=
  { c with state := v, prev := v, kd := keydownEdges c.prev v, ku := keyupEdges c.prev v }

/-- The gesture registers after a GESTURE, where there is one, fed with a channel's triple (30_encoding R82). -/
def GestureRegs.fed (g : GestureRegs) (useGesture : Bool) (c : ChannelRegs 16) : GestureRegs :=
  if useGesture then gestureStep g c.kd c.ku c.state else g

/-- The triple of a channel that has been polled, in the state that the READ gave. -/
theorem ChannelRegs.triple_of_polled {w : Nat} {c d : ChannelRegs w} {v : BitVec w} (h : d = c.polled v) :
    d.state = v ∧ d.kd = (c.prev ^^^ d.state) &&& d.state ∧ d.ku = (c.prev ^^^ d.state) &&& c.prev ∧
      d.prev = d.state := by
  subst h
  exact ⟨rfl, rfl, rfl, rfl⟩

end Groups

section PollParts

/-- The registers after a POLL.G whose READ.G gives `v` (40_debounce R102, R104). -/
def State.polledG (s : State) (v : GridMask) : State :=
  (s.withStateG v).withEdgesG (keydownEdges s.prevG v) (keyupEdges s.prevG v) v

/-- The registers after a POLL.X whose READ.X gives `v` (40_debounce R102, R104). -/
def State.polledX (s : State) (v : ExpMask) : State :=
  (s.withStateX v).withEdgesX (keydownEdges s.prevX v) (keyupEdges s.prevX v) v

/-- The registers after a GESTURE.G, where there is one. -/
def State.fedGesture (s : State) (useGesture : Bool) : State :=
  let g := s.gestureRegs.fed useGesture s.channelG
  s.withGesture g.gstate g.gact g.relkey g.gout

section Updates

variable (s : State) (p : Pins) (ps : List Pins) (v : GridMask) (x : ExpMask) (g : Bool)

@[simp] theorem withInputs_channelG : (s.withInputs p ps).channelG = s.channelG := rfl
@[simp] theorem withInputs_channelX : (s.withInputs p ps).channelX = s.channelX := rfl
@[simp] theorem withInputs_gestureRegs : (s.withInputs p ps).gestureRegs = s.gestureRegs := rfl
@[simp] theorem withInputs_bank : (s.withInputs p ps).bank = s.bank := rfl
@[simp] theorem withInputs_lastmode : (s.withInputs p ps).lastmode = s.lastmode := rfl
@[simp] theorem withInputs_pins : (s.withInputs p ps).pins = p := rfl

@[simp] theorem polledG_channelG : (s.polledG v).channelG = s.channelG.polled v := rfl
@[simp] theorem polledG_channelX : (s.polledG v).channelX = s.channelX := rfl
@[simp] theorem polledG_gestureRegs : (s.polledG v).gestureRegs = s.gestureRegs := rfl
@[simp] theorem polledG_bank : (s.polledG v).bank = s.bank := rfl
@[simp] theorem polledG_lastmode : (s.polledG v).lastmode = s.lastmode := rfl

@[simp] theorem polledX_channelG : (s.polledX x).channelG = s.channelG := rfl
@[simp] theorem polledX_channelX : (s.polledX x).channelX = s.channelX.polled x := rfl
@[simp] theorem polledX_gestureRegs : (s.polledX x).gestureRegs = s.gestureRegs := rfl
@[simp] theorem polledX_bank : (s.polledX x).bank = s.bank := rfl
@[simp] theorem polledX_lastmode : (s.polledX x).lastmode = s.lastmode := rfl

@[simp] theorem fedGesture_channelG : (s.fedGesture g).channelG = s.channelG := rfl
@[simp] theorem fedGesture_channelX : (s.fedGesture g).channelX = s.channelX := rfl
@[simp] theorem fedGesture_gestureRegs : (s.fedGesture g).gestureRegs = s.gestureRegs.fed g s.channelG := rfl
@[simp] theorem fedGesture_bank : (s.fedGesture g).bank = s.bank := rfl
@[simp] theorem fedGesture_lastmode : (s.fedGesture g).lastmode = s.lastmode := rfl

end Updates

/-- A line with a command without operands leaves the registers that the command makes on any pins. -/
theorem consumerLine_leaves {s u : State} {i : Instr} (hi : i.port = .consumer)
    (hx : ∀ p, exec i (s.withPins p) = .next (u.withPins p)) : ListingLeaves [consumerLine i] s u :=
  listingLeaves_consumer (hi ▸ decode_encode i) rfl (hx _)

/-- POLL.G reads the ring and derives the grid's triple. -/
theorem pollG_leaves {s : State} {v : GridMask} (h : windowAnd s.depth s.ringG = some v) :
    ListingLeaves pollG s (s.polledG v) := by
  obtain ⟨hlen, rfl⟩ := (windowAnd_eq_some_iff ..).1 h
  have hread : ListingLeaves [consumerLine .readG] s (s.withStateG (s.ringG.foldl (· &&& ·) (BitVec.allOnes 16))) :=
    consumerLine_leaves rfl fun _ => (execReadG_next_iff _ _).2 ⟨hlen, rfl⟩
  exact hread.append fun _ _ => consumerLine_leaves rfl fun _ => (execCalcG_next_iff _ _).2 rfl

/-- POLL.X reads the ring and derives channel X's triple. -/
theorem pollX_leaves {s : State} {v : ExpMask} (h : windowAnd s.depth s.ringX = some v) :
    ListingLeaves pollX s (s.polledX v) := by
  obtain ⟨hlen, rfl⟩ := (windowAnd_eq_some_iff ..).1 h
  have hread : ListingLeaves [consumerLine .readX] s (s.withStateX (s.ringX.foldl (· &&& ·) (BitVec.allOnes 4))) :=
    consumerLine_leaves rfl fun _ => (execReadX_next_iff _ _).2 ⟨hlen, rfl⟩
  exact hread.append fun _ _ => consumerLine_leaves rfl fun _ => (execCalcX_next_iff _ _).2 rfl

/-- GESTURE.G, where it is in the poll, feeds GESTURE with the grid's triple. -/
theorem gestureG_leaves (s : State) (useGesture : Bool) :
    ListingLeaves (if useGesture then [gestureG] else []) s (s.fedGesture useGesture) := by
  cases useGesture with
  | false => exact listingLeaves_nil s
  | true => exact listingLeaves_consumer (decode_encode .gesture) rfl rfl

end PollParts

section MapLines

/-- What a MAP leaves on other pins, seen on the state's own. -/
theorem mapLeaves_of_withPins {s t : State} {p : Pins} {nb : BankNo} {mode : BitVec 2} {ev : List (Bool × Nat)}
    (h : MapLeaves (s.withPins p) t nb mode ev) : MapLeaves s (t.withPins s.pins) nb mode ev := by
  obtain ⟨hbank, hmode, hbuffer, hoor, hill, hcause, hframe⟩ := h
  exact ⟨hbank, hmode, hbuffer, hoor, hill, hcause, congrArg (·.withPins s.pins) hframe⟩

variable {s : State} {cfg : ConfigInputs} {b nb : BankNo}

/-- The pins of a MAP.EXT line fed with the grid's triple (30_encoding R82). -/
def State.mapExtPins (s : State) (xkd xku xst : Word) : Pins where
  rst := false
  pcmd := none
  pd := 0#16
  ccmd := some (encode .mapExt)
  d0 := s.kdG
  d1 := s.kuG
  d2 := s.stateG
  d3 := xkd
  d4 := xku
  d5 := xst
  cfg := s.pins.cfg

/-- A MAP.EXT line fed with the grid's triple leaves what 42_bank_mapper R175 gives on its pins. -/
theorem mapExtLine_leaves {c : ConsumerDrive} {xkd xku xst : Word} {bsd bsu bss : ExpMask}
    (hword : c.word = encode .mapExt) (hp : s.linePins { consumer := some c } = some (s.mapExtPins xkd xku xst))
    (hcfg : s.pins.cfg = cfg) (hbsd : bsd = if cfg.expEn then expBits xkd else 0#4)
    (hbsu : bsu = if cfg.expEn then expBits xku else 0#4) (hbss : bss = if cfg.expEn then expBits xst else 0#4)
    (hb : b = if s.lastmode = 2#2 then s.bank else 0#2) (hnb : BankInForce bsd b nb) :
    ∃ u, ListingLeaves [{ consumer := some c }] s u ∧ MapLeaves s u nb 2#2
      (bankSelectEvents cfg.bankNoteBase.toNat b nb bsd bsu bss ++
        keyEventsFrom 0 false (cfg.baseNote.toNat + 16 * nb.toNat) s.kuG ++
        keyEventsFrom 0 true (cfg.baseNote.toNat + 16 * nb.toNat) s.kdG) := by
  subst hcfg
  rw [expBits_eq_ofNat] at hbsd hbsu hbss
  obtain ⟨t, ht, hleaves⟩ :=
    mapExtEvents (s.withPins (s.mapExtPins xkd xku xst)) bsd bsu bss b nb hbsd hbsu hbss hb hnb
  obtain ⟨-, hpins, -⟩ := exec_keeps_inputs ht
  have hinputs : t = (t.withPins s.pins).withPins (s.mapExtPins xkd xku xst) := congrArg t.withPins hpins
  exact ⟨t.withPins s.pins,
    listingLeaves_consumer (hword ▸ decode_encode .mapExt) hp (ht.trans (congrArg Host.Outcome.next hinputs)),
    mapLeaves_of_withPins hleaves⟩

/-- What the MAP line of a poll in External mode leaves: the channels and the gesture registers as they were, the
mode, and in the buffer the bank-select events and then those of the grid's triple (42_bank_mapper R170, R180). -/
structure MapsTriple (s u : State) (bankEvents : List (Bool × Nat)) (base : Nat) : Prop where
  channelG : u.channelG = s.channelG
  channelX : u.channelX = s.channelX
  gestureRegs : u.gestureRegs = s.gestureRegs
  lastmode : u.lastmode = 2#2
  buffer : BufferHolds u (bankEvents ++ keyEventsFrom 0 false base u.kuG ++ keyEventsFrom 0 true base u.kdG)

/-- A MAP whose key events are those of the grid's triple leaves that triple and what it made of it. -/
theorem mapsTriple_of_mapLeaves {u : State} {bankEvents : List (Bool × Nat)} {base : Nat}
    (h : MapLeaves s u nb 2#2
      (bankEvents ++ keyEventsFrom 0 false base s.kuG ++ keyEventsFrom 0 true base s.kdG)) :
    MapsTriple s u bankEvents base := by
  obtain ⟨-, hmode, hbuffer, -, -, -, hframe⟩ := h
  have hku : u.kuG = s.kuG := by rw [hframe]
  have hkd : u.kdG = s.kdG := by rw [hframe]
  exact
    { channelG := by rw [hframe]; rfl
      channelX := by rw [hframe]; rfl
      gestureRegs := by rw [hframe]; rfl
      lastmode := hmode
      buffer := by rwa [hku, hkd] }

/-- MAP.EXT without its expansion operands, the port enabled or not, keeps the bank and has the grid's events alone
(70_reset R255, 30_encoding R81). -/
theorem mapExtG_leaves (hcfg : s.pins.cfg = cfg) (hb : b = if s.lastmode = 2#2 then s.bank else 0#2) :
    ∃ u, ListingLeaves [mapExtG] s u ∧ u.bank = b ∧ MapsTriple s u [] (cfg.baseNote.toNat + 16 * b.toNat) := by
  have hpins : s.linePins mapExtG = some (s.mapExtPins 0#16 0#16 0#16) := rfl
  have hempty : 0#4 = if cfg.expEn then expBits 0#16 else 0#4 := (ite_self _).symm
  obtain ⟨u, hrun, hleaves⟩ := mapExtLine_leaves rfl hpins hcfg hempty hempty hempty hb (.inl ⟨rfl, rfl⟩)
  rw [bankSelectEvents_no_edge] at hleaves
  have hbank : u.bank = b := hleaves.1
  exact ⟨u, hrun, hbank, mapsTriple_of_mapLeaves hleaves⟩

/-- An expansion register is what the low 4 bits of its output say (30_encoding R76, 10_state R40). -/
theorem expBits_shown (m : ExpMask) : expBits (m.setWidth 16) = m := by
  revert m; decide

/-- MAP.EXT.GX, the port enabled, selects with channel X's triple and maps the grid's (30_encoding R82). -/
theorem mapExtGX_leaves (hcfg : s.pins.cfg = cfg) (hen : cfg.expEn = true)
    (hb : b = if s.lastmode = 2#2 then s.bank else 0#2) :
    ∃ u, ListingLeaves [mapExtGX] s u ∧ BankInForce u.kdX b u.bank ∧
      MapsTriple s u (bankSelectEvents cfg.bankNoteBase.toNat b u.bank u.kdX u.kuX u.stateX)
        (cfg.baseNote.toNat + 16 * u.bank.toNat) := by
  have hpins : s.linePins mapExtGX =
      some (s.mapExtPins (s.kdX.setWidth 16) (s.kuX.setWidth 16) (s.stateX.setWidth 16)) := rfl
  have hshown : ∀ m : ExpMask, m = if cfg.expEn then expBits (m.setWidth 16) else 0#4 :=
    fun m => by rw [if_pos hen, expBits_shown]
  have hforce : BankInForce s.kdX b (bankAfter b s.kdX) := bankInForce_iff.2 rfl
  obtain ⟨u, hrun, hleaves⟩ :=
    mapExtLine_leaves rfl hpins hcfg (hshown s.kdX) (hshown s.kuX) (hshown s.stateX) hb hforce
  have hmaps := mapsTriple_of_mapLeaves hleaves
  obtain ⟨-, -, hstate, -, hkd, hku⟩ := (ChannelRegs.mk.injEq ..).mp hmaps.channelX
  have hbank : u.bank = bankAfter b s.kdX := hleaves.1
  rw [← hbank, ← hstate, ← hkd, ← hku] at hmaps
  exact ⟨u, hrun, hbank ▸ hkd ▸ hforce, hmaps⟩

end MapLines

section Polls

variable {s : State} {v : GridMask} {x : ExpMask}

/-- The AND of a ring of `DEPTH` slots. -/
theorem exists_windowAnd {w d : Nat} {ring : List (BitVec w)} (h : ring.length = d) :
    ∃ v, windowAnd d ring = some v :=
  ⟨_, (windowAnd_eq_some_iff ..).2 ⟨h, rfl⟩⟩

/-- What a poll has made of a state when its MAP comes: channel G polled, channel X as given, GESTURE fed with the
grid's triple if it is in the poll, and the mapper's registers and the configuration inputs as they were. -/
structure BeforeMap (s r : State) (v : GridMask) (cX : ChannelRegs 4) (useGesture : Bool) : Prop where
  channelG : r.channelG = s.channelG.polled v
  channelX : r.channelX = cX
  gestureRegs : r.gestureRegs = s.gestureRegs.fed useGesture (s.channelG.polled v)
  bank : r.bank = s.bank
  lastmode : r.lastmode = s.lastmode
  cfg : r.pins.cfg = s.pins.cfg

/-- A poll without channel X, up to its MAP. -/
theorem gridPoll_leaves (hv : windowAnd s.depth s.ringG = some v) (g : Bool) :
    ListingLeaves (pollG ++ if g then [gestureG] else []) s ((s.polledG v).fedGesture g) :=
  (pollG_leaves hv).append fun p ps => gestureG_leaves ((s.polledG v).withInputs p ps) g

/-- A poll with channel X, up to its MAP. -/
theorem fullPoll_leaves (hv : windowAnd s.depth s.ringG = some v) (hx : windowAnd s.depth s.ringX = some x)
    (g : Bool) : ListingLeaves (pollG ++ pollX ++ if g then [gestureG] else []) s
      (((s.polledG v).polledX x).fedGesture g) :=
  ((pollG_leaves hv).append fun p ps => pollX_leaves (s := (s.polledG v).withInputs p ps) hx).append
    fun p ps => gestureG_leaves (((s.polledG v).polledX x).withInputs p ps) g

/-- A poll without channel X reaches its MAP with channel X as it was. -/
theorem gridPoll_reaches_map (hs : s.upcoming = []) (hv : windowAnd s.depth s.ringG = some v) (g : Bool) :
    ∃ r, BeforeMap s r v s.channelX g ∧ ∀ {t}, ListingLeaves [mapExtG] r t →
      ∃ q qs, runListing (canonicalPoll g (some (.external false))) s = .next (t.withInputs q qs) := by
  obtain ⟨p, hcfg, hlast⟩ := (gridPoll_leaves hv g).then_run hs
  have hpoll : canonicalPoll g (some (.external false)) = (pollG ++ if g then [gestureG] else []) ++ [mapExtG] := rfl
  exact ⟨((s.polledG v).fedGesture g).withInputs p [], by constructor <;> simp [hcfg], fun h => hpoll ▸ hlast h⟩

/-- A poll with channel X reaches its MAP with channel X polled. -/
theorem fullPoll_reaches_map (hs : s.upcoming = []) (hv : windowAnd s.depth s.ringG = some v)
    (hx : windowAnd s.depth s.ringX = some x) (g : Bool) :
    ∃ r, BeforeMap s r v (s.channelX.polled x) g ∧ ∀ {t}, ListingLeaves [mapExtGX] r t →
      ∃ q qs, runListing (canonicalPoll g (some (.external true))) s = .next (t.withInputs q qs) := by
  obtain ⟨p, hcfg, hlast⟩ := (fullPoll_leaves hv hx g).then_run hs
  have hpoll : canonicalPoll g (some (.external true)) =
      (pollG ++ pollX ++ if g then [gestureG] else []) ++ [mapExtGX] := rfl
  exact ⟨(((s.polledG v).polledX x).fedGesture g).withInputs p [], by constructor <;> simp [hcfg],
    fun h => hpoll ▸ hlast h⟩

/-- The working bank of the poll's MAP comes from the mapper's registers before the poll (42_bank_mapper R173). -/
theorem BeforeMap.entryBank {r : State} {cX : ChannelRegs 4} {g : Bool} {b : BankNo} (h : BeforeMap s r v cX g)
    (hb : b = if s.lastmode = 2#2 then s.bank else 0#2) : b = if r.lastmode = 2#2 then r.bank else 0#2 := by
  rwa [h.bank, h.lastmode]

/-- After the MAP as before it the gesture registers are those of the poll's grid triple, if GESTURE is in the poll. -/
theorem BeforeMap.gestureRegs_after {r t : State} {cX : ChannelRegs 4} {g : Bool} (h : BeforeMap s r v cX g)
    {bankEvents : List (Bool × Nat)} {base : Nat} (hmaps : MapsTriple r t bankEvents base) :
    t.gestureRegs = if g then gestureStep s.gestureRegs t.kdG t.kuG t.stateG else s.gestureRegs := by
  rw [hmaps.gestureRegs, h.gestureRegs, ← h.channelG, ← hmaps.channelG]
  rfl

/-- Settles O59: the lines of the poll leave their registers one after the other, and GESTURE.G names the triple. -/
theorem pollFeedsGestureItsTriple : Obligations.PollFeedsGestureItsTriple := by
  intro s hlen
  obtain ⟨v, hv⟩ := exists_windowAnd hlen
  obtain ⟨p, ps, hrun, -⟩ := gridPoll_leaves hv true
  have hpolled : (((s.polledG v).fedGesture true).withInputs p ps).channelG = s.channelG.polled v := by simp
  obtain ⟨hstate, hkd, hku, hprev⟩ := ChannelRegs.triple_of_polled hpolled
  rw [hstate] at hkd hku hprev
  exact ⟨_, v, hrun, hv, hstate, hkd, hku, hprev, rfl⟩

/-- Settles O60: the lines before the MAP leave the triples and hold the configuration, and the MAP, with or without
its expansion operands, leaves those registers alone. -/
theorem pollReadsExpansionOnlyWhenUsed : Obligations.PollReadsExpansionOnlyWhenUsed := by
  refine ⟨fun s g b hs hlenG hb => ?unused, fun s g b hs hlenG hlenX hen hb => ?used⟩
  case unused =>
    obtain ⟨v, hv⟩ := exists_windowAnd hlenG
    obtain ⟨r, hbefore, hlast⟩ := gridPoll_reaches_map hs hv g
    obtain ⟨t, hmap, hbank, hmaps⟩ := mapExtG_leaves hbefore.cfg (hbefore.entryBank hb)
    obtain ⟨q, qs, hrun⟩ := hlast hmap
    have hregs := hbefore.gestureRegs_after hmaps
    obtain ⟨hstateG, hkdG, hkuG, hprevG⟩ := ChannelRegs.triple_of_polled (hmaps.channelG.trans hbefore.channelG)
    obtain ⟨hring, hwp, hstateX, hprevX, hkdX, hkuX⟩ :=
      (ChannelRegs.mk.injEq ..).mp (hmaps.channelX.trans hbefore.channelX)
    rw [← hstateG] at hv
    exact ⟨t.withInputs q qs, hrun, hring, hwp, hstateX, hprevX, hkdX, hkuX, hv, hkdG, hkuG, hprevG, hregs, hbank,
      hmaps.lastmode, hmaps.buffer⟩
  case used =>
    obtain ⟨v, hv⟩ := exists_windowAnd hlenG
    obtain ⟨x, hx⟩ := exists_windowAnd hlenX
    obtain ⟨r, hbefore, hlast⟩ := fullPoll_reaches_map hs hv hx g
    obtain ⟨t, hmap, hforce, hmaps⟩ := mapExtGX_leaves hbefore.cfg hen (hbefore.entryBank hb)
    obtain ⟨q, qs, hrun⟩ := hlast hmap
    have hregs := hbefore.gestureRegs_after hmaps
    obtain ⟨hstateG, hkdG, hkuG, hprevG⟩ := ChannelRegs.triple_of_polled (hmaps.channelG.trans hbefore.channelG)
    obtain ⟨hstateX, hkdX, hkuX, hprevX⟩ := ChannelRegs.triple_of_polled (hmaps.channelX.trans hbefore.channelX)
    rw [← hstateG] at hv
    rw [← hstateX] at hx
    exact ⟨t.withInputs q qs, hrun, hx, hkdX, hkuX, hprevX, hv, hkdG, hkuG, hprevG, hregs, hforce,
      hmaps.lastmode, hmaps.buffer⟩

end Polls

end Sys2Proof.Machine
end
